-- ==== Sys2Proof/Word.lean ====
section
/-!
DEFINITION. The words of the machine: a byte, one entry of a code table, a code table.
-/

namespace Sys2Proof

/-- One byte: the unit of IN, OUT and HIST (20_memory.md R60). -/
abbrev Byte := BitVec 8

/-- One entry of a `Code` (10_state.md R39): a symbol stored under its sentinel-prefixed key. Keys are 16 bits wide,
symbols 9 bits. -/
structure Entry where
  key : BitVec 16
  sym : BitVec 9
  deriving DecidableEq, Repr

/-- The type `Code` (10_state.md R39): a partial function from keys to symbols. How it is stored is free; here it is the
list of its entries in the order `build` assigns them, which is rising key order (log 12). -/
abbrev Code := List Entry

end Sys2Proof
end

