-- ==== Sys2Proof/Config.lean ====
section
/-!
DEFINITION. What is the same in every run (00_scope.md R7, 10_state.md R21, R41): the parameters and the code lengths of
the two fixed codes. Nothing is left free: the spec has no open parameter but `SRC` (92_eei_decisions.md, "Parameters left
open").
-/

namespace Sys2Proof.Config

/-- `C`, the capacity of the history buffer in bytes (R7). -/
def capacity : Nat := 32768

/-- `MAXLEN`, the maximum code length in bits (R7). -/
def maxLen : Nat := 15

/-- `MAXUINT`, the largest `n` that `readUint(n)` accepts (R7). -/
def maxUint : Nat := 15

/-- `N_CL`, the symbols of the code-length code (R7). -/
def nCl : Nat := 19

/-- `N_CODELEN_MAX`, the largest number of code lengths a dynamic header declares (R7). -/
def nCodeLenMax : Nat := 320

/-- `PAD_SLOT`, the index of the synthetic distance code (R7, 44_dynamic_header.md R224). -/
def padSlot : Nat := 31

/-- `MINMATCH` and `MAXMATCH`, the range of run lengths (R7). -/
def minMatch : Nat := 3
def maxMatch : Nat := 258

/-- `CL_LEN_BITS`, the width of one code-length-code length. PRESUMED: the spec has it from outside its source (R7,
92_eei_decisions.md D15, log 7). -/
def clLenBits : Nat := 3

/-- `CL_ORDER`, the scan order of code-length-code lengths (R7, 30_encoding.md R96). -/
def clOrder : List Nat :=
  [16, 17, 18, 0, 8, 7, 9, 6, 10, 5, 11, 4, 12, 3, 13, 2, 14, 1, 15]

/-- The code lengths of `FIXED_LL_CODE`: `[8]×144 ++ [9]×112 ++ [7]×24 ++ [8]×8` (R41). -/
def fixedLLLens : List (BitVec 4) :=
  List.replicate 144 8 ++ List.replicate 112 9 ++ List.replicate 24 7 ++ List.replicate 8 8

/-- The code lengths of `FIXED_D_CODE`: `[5]×32` (R41). -/
def fixedDLens : List (BitVec 4) := List.replicate 32 5

end Sys2Proof.Config
end

