-- ==== Sys2Proof/Machine/Operands.lean ====
section
/-!
DEFINITION. How symbols and extra bits become operands (30_encoding.md section 4): widths and bases of the three symbol
alphabets, and the counts of a dynamic header.
-/

namespace Sys2Proof.Machine

/-- `E` of a literal/length symbol: the width of its extra bits (R103, 45_huffman_body.md R244). -/
def lengthExtraBits (sym : Nat) : Nat :=
  if 265 ≤ sym ∧ sym ≤ 284 then (sym - 261) / 4 else 0

/-- `F` of a distance symbol: the width of its extra bits (R104, 45_huffman_body.md R250). -/
def distExtraBits (sym : Nat) : Nat :=
  if 4 ≤ sym ∧ sym ≤ 29 then sym / 2 - 1 else 0

/-- The width of the extra bits of a code-length symbol (R105). -/
def clExtraBits (sym : Nat) : Nat :=
  if sym = 16 then 2 else if sym = 17 then 3 else if sym = 18 then 7 else 0

/-- `base` of the length symbols 257..285 (R103, R243 to R245). -/
def lengthBase (sym : Nat) : Nat :=
  if sym ≤ 264 then sym - 254
  else if sym ≤ 284 then ((sym - 265) % 4 + 4) <<< lengthExtraBits sym + 3
  else 258

/-- `base` of the distance symbols 0..29 (R104, R249, R250). -/
def distBase (sym : Nat) : Nat :=
  if sym ≤ 3 then sym + 1 else (sym % 2 + 2) <<< distExtraBits sym + 1

/-- `nll`, the count of literal/length code lengths (R95, R106, 10_state.md R36). -/
def countLL (hlit : BitVec 5) : Nat := hlit.toNat + 257

/-- `nd`, the count of distance code lengths (R95, R106). -/
def countD (hdist : BitVec 5) : Nat := hdist.toNat + 1

/-- `ncl`, the count of code-length-code lengths (R95, R106). -/
def countCl (hclen : BitVec 4) : Nat := hclen.toNat + 4

end Sys2Proof.Machine
end

