-- ==== Sys2Proof/Machine/CanonicalCode.lean ====
section
/-!
DEFINITION. huffman_decoder, the builder (41_canonical_code.md): `build`, the lookup of a key, and the two constant codes.
-/

namespace Sys2Proof

/-- Why `build` fails (R152, R153). -/
inductive BuildError where
  | overfull
  | underfull
  deriving DecidableEq, Repr

namespace Machine

/-- The sentinel-prefixed key `(1 << L) | V` of a code of length `L` and value `V < 2^L` (R150). -/
def sentinelKey (L V : Nat) : BitVec 16 := BitVec.ofNat 16 (2 ^ L + V)

/-- One length step of `build` (R151): the symbols of length `L`, in ascending order from symbol `s`, take the code values
from `next` on. Answers the counter after the step and the entries made, or over-full at the first symbol that finds
`next >= 2^L` (R152). -/
def assignLength (L : Nat) : (s next : Nat) → List (BitVec 4) → Except BuildError (Nat × Code)
  | _, next, [] => .ok (next, [])
  | s, next, l :: ls =>
    if l.toNat = L then
      if 2 ^ L ≤ next then .error .overfull
      else
        match assignLength L (s + 1) (next + 1) ls with
        | .error e => .error e
        | .ok (next', table) => .ok (next', ⟨sentinelKey L next, BitVec.ofNat 9 s⟩ :: table)
    else assignLength L (s + 1) next ls

/-- The length steps `L, L+1, ...`, `k` of them, each after one shift of `next` (R151). -/
def assignLengths (lens : List (BitVec 4)) : (k L next : Nat) → Except BuildError (Nat × Code)
  | 0, _, next => .ok (next, [])
  | k + 1, L, next =>
    match assignLength L 0 (2 * next) lens with
    | .error e => .error e
    | .ok (next', table) =>
      match assignLengths lens k (L + 1) next' with
      | .error e => .error e
      | .ok (next'', table') => .ok (next'', table ++ table')

/-- `build(lengths)`: canonical code construction (R151 to R153). `lengths[s]` is the code length of symbol `s`; a length
above 15 is unrepresentable (R154). -/
def build (lens : List (BitVec 4)) : Except BuildError Code :=
  match assignLengths lens Config.maxLen 1 0 with
  | .error e => .error e
  | .ok (next, table) => if next = 2 ^ Config.maxLen then .ok table else .error .underfull

/-- `code[key]`, where the table has the key (R156). -/
def lookupKey (code : Code) (key : BitVec 16) : Option (BitVec 9) :=
  (code.find? (fun e => e.key == key)).map Entry.sym

/-- The key of a symbol, where the table has the symbol. -/
def keyOfSymbol (code : Code) (sym : Nat) : Option (BitVec 16) :=
  (code.find? (fun e => e.sym.toNat == sym)).map Entry.key

/-- `n` codes of length `L` with the values from `V` on, for the symbols from `s` on. -/
def codeRun (L V s n : Nat) : Code :=
  (List.range n).map fun k => ⟨sentinelKey L (V + k), BitVec.ofNat 9 (s + k)⟩

/-- `FIXED_LL_CODE`, the constant contents of 30_encoding.md R101. Laws/CanonicalCode.lean proves that it is what `build`
answers on `Config.fixedLLLens` (10_state.md R41, R159). -/
def fixedLLCode : Code :=
  codeRun 7 0 256 24 ++ (codeRun 8 0x30 0 144 ++ (codeRun 8 0xC0 280 8 ++ codeRun 9 0x190 144 112))

/-- `FIXED_D_CODE`, the constant contents of 30_encoding.md R102; what `build` answers on `Config.fixedDLens` (R41, R159). -/
def fixedDCode : Code := codeRun 5 0 0 32

end Machine
end Sys2Proof
end

