-- ==== Sys2Proof/Syntax.lean ====
section
/-!
DEFINITION. The syntax: `Instr`, one constructor per row of spec/opcode_table.json, and `Ctx`, the element kind a decoder
expects with the code table in force.
-/

namespace Sys2Proof

/-- One stream element (30_encoding.md R109). A constructor's arguments are the fields and extra bits of its row, each at
the width the row's encoding gives it. -/
inductive Instr where
  -- Format HDR (R92, R93): the dispatch on BTYPE; `f` is BFINAL
  | btype0Stored (f : Bool)
  | btype1Fixed (f : Bool)
  | btype2Dynamic (f : Bool)
  | btype3Reserved (f : Bool)
  -- Format FIELD: HDR (R92), STORED_LEN_NLEN (R94), HLIT, HDIST, HCLEN (R95), CLLEN (R96)
  | hdr (f : Bool) (t : BitVec 2)
  | storedLenNlen (len nlen : BitVec 16)
  | hlit (h : BitVec 5)
  | hdist (d : BitVec 5)
  | hclen (c : BitVec 4)
  | cllen (v : BitVec 3)
  -- Format LITLEN (R98): the lengths; `x` is the extra bits (R103)
  | len257
  | len258
  | len259
  | len260
  | len261
  | len262
  | len263
  | len264
  | len265 (x : BitVec 1)
  | len266 (x : BitVec 1)
  | len267 (x : BitVec 1)
  | len268 (x : BitVec 1)
  | len269 (x : BitVec 2)
  | len270 (x : BitVec 2)
  | len271 (x : BitVec 2)
  | len272 (x : BitVec 2)
  | len273 (x : BitVec 3)
  | len274 (x : BitVec 3)
  | len275 (x : BitVec 3)
  | len276 (x : BitVec 3)
  | len277 (x : BitVec 4)
  | len278 (x : BitVec 4)
  | len279 (x : BitVec 4)
  | len280 (x : BitVec 4)
  | len281 (x : BitVec 5)
  | len282 (x : BitVec 5)
  | len283 (x : BitVec 5)
  | len284 (x : BitVec 5)
  | len285
  | len286Reserved
  | len287Reserved
  -- Format DIST (R99): distances; `x` is the extra bits (R104)
  | dist0
  | dist1
  | dist2
  | dist3
  | dist4 (x : BitVec 1)
  | dist5 (x : BitVec 1)
  | dist6 (x : BitVec 2)
  | dist7 (x : BitVec 2)
  | dist8 (x : BitVec 3)
  | dist9 (x : BitVec 3)
  | dist10 (x : BitVec 4)
  | dist11 (x : BitVec 4)
  | dist12 (x : BitVec 5)
  | dist13 (x : BitVec 5)
  | dist14 (x : BitVec 6)
  | dist15 (x : BitVec 6)
  | dist16 (x : BitVec 7)
  | dist17 (x : BitVec 7)
  | dist18 (x : BitVec 8)
  | dist19 (x : BitVec 8)
  | dist20 (x : BitVec 9)
  | dist21 (x : BitVec 9)
  | dist22 (x : BitVec 10)
  | dist23 (x : BitVec 10)
  | dist24 (x : BitVec 11)
  | dist25 (x : BitVec 11)
  | dist26 (x : BitVec 12)
  | dist27 (x : BitVec 12)
  | dist28 (x : BitVec 13)
  | dist29 (x : BitVec 13)
  | dist30Reserved
  | dist31Reserved
  -- Format CLSYM (R97): code-length symbols; `x` is the extra bits (R105)
  | cl0
  | cl1
  | cl2
  | cl3
  | cl4
  | cl5
  | cl6
  | cl7
  | cl8
  | cl9
  | cl10
  | cl11
  | cl12
  | cl13
  | cl14
  | cl15
  | cl16Repeat (x : BitVec 2)
  | cl17Zeros (x : BitVec 3)
  | cl18Zeros (x : BitVec 7)
  -- Format LITLEN (R98): the literals and the end of block
  | lit00 | lit01 | lit02 | lit03 | lit04 | lit05 | lit06 | lit07 | lit08 | lit09 | lit0A | lit0B | lit0C | lit0D | lit0E | lit0F
  | lit10 | lit11 | lit12 | lit13 | lit14 | lit15 | lit16 | lit17 | lit18 | lit19 | lit1A | lit1B | lit1C | lit1D | lit1E | lit1F
  | lit20 | lit21 | lit22 | lit23 | lit24 | lit25 | lit26 | lit27 | lit28 | lit29 | lit2A | lit2B | lit2C | lit2D | lit2E | lit2F
  | lit30 | lit31 | lit32 | lit33 | lit34 | lit35 | lit36 | lit37 | lit38 | lit39 | lit3A | lit3B | lit3C | lit3D | lit3E | lit3F
  | lit40 | lit41 | lit42 | lit43 | lit44 | lit45 | lit46 | lit47 | lit48 | lit49 | lit4A | lit4B | lit4C | lit4D | lit4E | lit4F
  | lit50 | lit51 | lit52 | lit53 | lit54 | lit55 | lit56 | lit57 | lit58 | lit59 | lit5A | lit5B | lit5C | lit5D | lit5E | lit5F
  | lit60 | lit61 | lit62 | lit63 | lit64 | lit65 | lit66 | lit67 | lit68 | lit69 | lit6A | lit6B | lit6C | lit6D | lit6E | lit6F
  | lit70 | lit71 | lit72 | lit73 | lit74 | lit75 | lit76 | lit77 | lit78 | lit79 | lit7A | lit7B | lit7C | lit7D | lit7E | lit7F
  | lit80 | lit81 | lit82 | lit83 | lit84 | lit85 | lit86 | lit87 | lit88 | lit89 | lit8A | lit8B | lit8C | lit8D | lit8E | lit8F
  | lit90 | lit91 | lit92 | lit93 | lit94 | lit95 | lit96 | lit97 | lit98 | lit99 | lit9A | lit9B | lit9C | lit9D | lit9E | lit9F
  | litA0 | litA1 | litA2 | litA3 | litA4 | litA5 | litA6 | litA7 | litA8 | litA9 | litAA | litAB | litAC | litAD | litAE | litAF
  | litB0 | litB1 | litB2 | litB3 | litB4 | litB5 | litB6 | litB7 | litB8 | litB9 | litBA | litBB | litBC | litBD | litBE | litBF
  | litC0 | litC1 | litC2 | litC3 | litC4 | litC5 | litC6 | litC7 | litC8 | litC9 | litCA | litCB | litCC | litCD | litCE | litCF
  | litD0 | litD1 | litD2 | litD3 | litD4 | litD5 | litD6 | litD7 | litD8 | litD9 | litDA | litDB | litDC | litDD | litDE | litDF
  | litE0 | litE1 | litE2 | litE3 | litE4 | litE5 | litE6 | litE7 | litE8 | litE9 | litEA | litEB | litEC | litED | litEE | litEF
  | litF0 | litF1 | litF2 | litF3 | litF4 | litF5 | litF6 | litF7 | litF8 | litF9 | litFA | litFB | litFC | litFD | litFE | litFF
  | eob
  deriving DecidableEq, Repr

/-- The element kind expected next, with what decoding it depends on: the code table in force, for a code-length symbol
whether it is the first one of its header (44_dynamic_header.md R216), and for the dispatch the header bits already read
(43_block_header_stored.md R192). -/
inductive Ctx where
  | header
  | dispatch (f : Bool) (t : BitVec 2)
  | storedLen
  | hlit
  | hdist
  | hclen
  | cllen
  | clsym (code : Code) (first : Bool)
  | litlen (code : Code)
  | dist (code : Code)
  deriving DecidableEq, Repr

/-- The three symbol alphabets (00_scope.md, glossary). -/
inductive Alphabet where
  | clsym
  | litlen
  | dist
  deriving DecidableEq, Repr

/-- What an element is in the stream (30_encoding.md section 2): the dispatch on header bits, a fixed-width field given by
its bits in stream order, or a symbol followed by `n` extra bits of value `x`. -/
inductive Form where
  | header (f : Bool) (t : BitVec 2)
  | field (bits : List Bool)
  | symbol (a : Alphabet) (sym n x : Nat)
  deriving DecidableEq, Repr

end Sys2Proof
end

