-- ==== Sys2Proof/Machine/Forms.lean ====
section
/-!
DEFINITION. The rows of spec/opcode_table.json, both ways: from a constructor of `Instr` to what it is in the stream (for
the encoder), and from a symbol and the value of its extra bits to the constructor (for the decoder).
-/

namespace Sys2Proof.Machine

/-- The `n` low bits of `x`, least significant first: a fixed-width field in stream order (20_memory.md R68). -/
def fieldBits : (n x : Nat) → List Bool
  | 0, _ => []
  | n + 1, x => decide (x % 2 = 1) :: fieldBits n (x / 2)

/-- What the element is in the stream: the `format`, `symbol` and `extra_bits` of its row (R109). -/
def formOf : Instr → Form
  | .btype0Stored f => .header f 0
  | .btype1Fixed f => .header f 1
  | .btype2Dynamic f => .header f 2
  | .btype3Reserved f => .header f 3
  | .hdr f t => .field (f :: fieldBits 2 t.toNat)
  | .storedLenNlen len nlen => .field (fieldBits 16 len.toNat ++ fieldBits 16 nlen.toNat)
  | .hlit h => .field (fieldBits 5 h.toNat)
  | .hdist d => .field (fieldBits 5 d.toNat)
  | .hclen c => .field (fieldBits 4 c.toNat)
  | .cllen v => .field (fieldBits 3 v.toNat)
  | .lit00 => .symbol .litlen 0 0 0
  | .lit01 => .symbol .litlen 1 0 0
  | .lit02 => .symbol .litlen 2 0 0
  | .lit03 => .symbol .litlen 3 0 0
  | .lit04 => .symbol .litlen 4 0 0
  | .lit05 => .symbol .litlen 5 0 0
  | .lit06 => .symbol .litlen 6 0 0
  | .lit07 => .symbol .litlen 7 0 0
  | .lit08 => .symbol .litlen 8 0 0
  | .lit09 => .symbol .litlen 9 0 0
  | .lit0A => .symbol .litlen 10 0 0
  | .lit0B => .symbol .litlen 11 0 0
  | .lit0C => .symbol .litlen 12 0 0
  | .lit0D => .symbol .litlen 13 0 0
  | .lit0E => .symbol .litlen 14 0 0
  | .lit0F => .symbol .litlen 15 0 0
  | .lit10 => .symbol .litlen 16 0 0
  | .lit11 => .symbol .litlen 17 0 0
  | .lit12 => .symbol .litlen 18 0 0
  | .lit13 => .symbol .litlen 19 0 0
  | .lit14 => .symbol .litlen 20 0 0
  | .lit15 => .symbol .litlen 21 0 0
  | .lit16 => .symbol .litlen 22 0 0
  | .lit17 => .symbol .litlen 23 0 0
  | .lit18 => .symbol .litlen 24 0 0
  | .lit19 => .symbol .litlen 25 0 0
  | .lit1A => .symbol .litlen 26 0 0
  | .lit1B => .symbol .litlen 27 0 0
  | .lit1C => .symbol .litlen 28 0 0
  | .lit1D => .symbol .litlen 29 0 0
  | .lit1E => .symbol .litlen 30 0 0
  | .lit1F => .symbol .litlen 31 0 0
  | .lit20 => .symbol .litlen 32 0 0
  | .lit21 => .symbol .litlen 33 0 0
  | .lit22 => .symbol .litlen 34 0 0
  | .lit23 => .symbol .litlen 35 0 0
  | .lit24 => .symbol .litlen 36 0 0
  | .lit25 => .symbol .litlen 37 0 0
  | .lit26 => .symbol .litlen 38 0 0
  | .lit27 => .symbol .litlen 39 0 0
  | .lit28 => .symbol .litlen 40 0 0
  | .lit29 => .symbol .litlen 41 0 0
  | .lit2A => .symbol .litlen 42 0 0
  | .lit2B => .symbol .litlen 43 0 0
  | .lit2C => .symbol .litlen 44 0 0
  | .lit2D => .symbol .litlen 45 0 0
  | .lit2E => .symbol .litlen 46 0 0
  | .lit2F => .symbol .litlen 47 0 0
  | .lit30 => .symbol .litlen 48 0 0
  | .lit31 => .symbol .litlen 49 0 0
  | .lit32 => .symbol .litlen 50 0 0
  | .lit33 => .symbol .litlen 51 0 0
  | .lit34 => .symbol .litlen 52 0 0
  | .lit35 => .symbol .litlen 53 0 0
  | .lit36 => .symbol .litlen 54 0 0
  | .lit37 => .symbol .litlen 55 0 0
  | .lit38 => .symbol .litlen 56 0 0
  | .lit39 => .symbol .litlen 57 0 0
  | .lit3A => .symbol .litlen 58 0 0
  | .lit3B => .symbol .litlen 59 0 0
  | .lit3C => .symbol .litlen 60 0 0
  | .lit3D => .symbol .litlen 61 0 0
  | .lit3E => .symbol .litlen 62 0 0
  | .lit3F => .symbol .litlen 63 0 0
  | .lit40 => .symbol .litlen 64 0 0
  | .lit41 => .symbol .litlen 65 0 0
  | .lit42 => .symbol .litlen 66 0 0
  | .lit43 => .symbol .litlen 67 0 0
  | .lit44 => .symbol .litlen 68 0 0
  | .lit45 => .symbol .litlen 69 0 0
  | .lit46 => .symbol .litlen 70 0 0
  | .lit47 => .symbol .litlen 71 0 0
  | .lit48 => .symbol .litlen 72 0 0
  | .lit49 => .symbol .litlen 73 0 0
  | .lit4A => .symbol .litlen 74 0 0
  | .lit4B => .symbol .litlen 75 0 0
  | .lit4C => .symbol .litlen 76 0 0
  | .lit4D => .symbol .litlen 77 0 0
  | .lit4E => .symbol .litlen 78 0 0
  | .lit4F => .symbol .litlen 79 0 0
  | .lit50 => .symbol .litlen 80 0 0
  | .lit51 => .symbol .litlen 81 0 0
  | .lit52 => .symbol .litlen 82 0 0
  | .lit53 => .symbol .litlen 83 0 0
  | .lit54 => .symbol .litlen 84 0 0
  | .lit55 => .symbol .litlen 85 0 0
  | .lit56 => .symbol .litlen 86 0 0
  | .lit57 => .symbol .litlen 87 0 0
  | .lit58 => .symbol .litlen 88 0 0
  | .lit59 => .symbol .litlen 89 0 0
  | .lit5A => .symbol .litlen 90 0 0
  | .lit5B => .symbol .litlen 91 0 0
  | .lit5C => .symbol .litlen 92 0 0
  | .lit5D => .symbol .litlen 93 0 0
  | .lit5E => .symbol .litlen 94 0 0
  | .lit5F => .symbol .litlen 95 0 0
  | .lit60 => .symbol .litlen 96 0 0
  | .lit61 => .symbol .litlen 97 0 0
  | .lit62 => .symbol .litlen 98 0 0
  | .lit63 => .symbol .litlen 99 0 0
  | .lit64 => .symbol .litlen 100 0 0
  | .lit65 => .symbol .litlen 101 0 0
  | .lit66 => .symbol .litlen 102 0 0
  | .lit67 => .symbol .litlen 103 0 0
  | .lit68 => .symbol .litlen 104 0 0
  | .lit69 => .symbol .litlen 105 0 0
  | .lit6A => .symbol .litlen 106 0 0
  | .lit6B => .symbol .litlen 107 0 0
  | .lit6C => .symbol .litlen 108 0 0
  | .lit6D => .symbol .litlen 109 0 0
  | .lit6E => .symbol .litlen 110 0 0
  | .lit6F => .symbol .litlen 111 0 0
  | .lit70 => .symbol .litlen 112 0 0
  | .lit71 => .symbol .litlen 113 0 0
  | .lit72 => .symbol .litlen 114 0 0
  | .lit73 => .symbol .litlen 115 0 0
  | .lit74 => .symbol .litlen 116 0 0
  | .lit75 => .symbol .litlen 117 0 0
  | .lit76 => .symbol .litlen 118 0 0
  | .lit77 => .symbol .litlen 119 0 0
  | .lit78 => .symbol .litlen 120 0 0
  | .lit79 => .symbol .litlen 121 0 0
  | .lit7A => .symbol .litlen 122 0 0
  | .lit7B => .symbol .litlen 123 0 0
  | .lit7C => .symbol .litlen 124 0 0
  | .lit7D => .symbol .litlen 125 0 0
  | .lit7E => .symbol .litlen 126 0 0
  | .lit7F => .symbol .litlen 127 0 0
  | .lit80 => .symbol .litlen 128 0 0
  | .lit81 => .symbol .litlen 129 0 0
  | .lit82 => .symbol .litlen 130 0 0
  | .lit83 => .symbol .litlen 131 0 0
  | .lit84 => .symbol .litlen 132 0 0
  | .lit85 => .symbol .litlen 133 0 0
  | .lit86 => .symbol .litlen 134 0 0
  | .lit87 => .symbol .litlen 135 0 0
  | .lit88 => .symbol .litlen 136 0 0
  | .lit89 => .symbol .litlen 137 0 0
  | .lit8A => .symbol .litlen 138 0 0
  | .lit8B => .symbol .litlen 139 0 0
  | .lit8C => .symbol .litlen 140 0 0
  | .lit8D => .symbol .litlen 141 0 0
  | .lit8E => .symbol .litlen 142 0 0
  | .lit8F => .symbol .litlen 143 0 0
  | .lit90 => .symbol .litlen 144 0 0
  | .lit91 => .symbol .litlen 145 0 0
  | .lit92 => .symbol .litlen 146 0 0
  | .lit93 => .symbol .litlen 147 0 0
  | .lit94 => .symbol .litlen 148 0 0
  | .lit95 => .symbol .litlen 149 0 0
  | .lit96 => .symbol .litlen 150 0 0
  | .lit97 => .symbol .litlen 151 0 0
  | .lit98 => .symbol .litlen 152 0 0
  | .lit99 => .symbol .litlen 153 0 0
  | .lit9A => .symbol .litlen 154 0 0
  | .lit9B => .symbol .litlen 155 0 0
  | .lit9C => .symbol .litlen 156 0 0
  | .lit9D => .symbol .litlen 157 0 0
  | .lit9E => .symbol .litlen 158 0 0
  | .lit9F => .symbol .litlen 159 0 0
  | .litA0 => .symbol .litlen 160 0 0
  | .litA1 => .symbol .litlen 161 0 0
  | .litA2 => .symbol .litlen 162 0 0
  | .litA3 => .symbol .litlen 163 0 0
  | .litA4 => .symbol .litlen 164 0 0
  | .litA5 => .symbol .litlen 165 0 0
  | .litA6 => .symbol .litlen 166 0 0
  | .litA7 => .symbol .litlen 167 0 0
  | .litA8 => .symbol .litlen 168 0 0
  | .litA9 => .symbol .litlen 169 0 0
  | .litAA => .symbol .litlen 170 0 0
  | .litAB => .symbol .litlen 171 0 0
  | .litAC => .symbol .litlen 172 0 0
  | .litAD => .symbol .litlen 173 0 0
  | .litAE => .symbol .litlen 174 0 0
  | .litAF => .symbol .litlen 175 0 0
  | .litB0 => .symbol .litlen 176 0 0
  | .litB1 => .symbol .litlen 177 0 0
  | .litB2 => .symbol .litlen 178 0 0
  | .litB3 => .symbol .litlen 179 0 0
  | .litB4 => .symbol .litlen 180 0 0
  | .litB5 => .symbol .litlen 181 0 0
  | .litB6 => .symbol .litlen 182 0 0
  | .litB7 => .symbol .litlen 183 0 0
  | .litB8 => .symbol .litlen 184 0 0
  | .litB9 => .symbol .litlen 185 0 0
  | .litBA => .symbol .litlen 186 0 0
  | .litBB => .symbol .litlen 187 0 0
  | .litBC => .symbol .litlen 188 0 0
  | .litBD => .symbol .litlen 189 0 0
  | .litBE => .symbol .litlen 190 0 0
  | .litBF => .symbol .litlen 191 0 0
  | .litC0 => .symbol .litlen 192 0 0
  | .litC1 => .symbol .litlen 193 0 0
  | .litC2 => .symbol .litlen 194 0 0
  | .litC3 => .symbol .litlen 195 0 0
  | .litC4 => .symbol .litlen 196 0 0
  | .litC5 => .symbol .litlen 197 0 0
  | .litC6 => .symbol .litlen 198 0 0
  | .litC7 => .symbol .litlen 199 0 0
  | .litC8 => .symbol .litlen 200 0 0
  | .litC9 => .symbol .litlen 201 0 0
  | .litCA => .symbol .litlen 202 0 0
  | .litCB => .symbol .litlen 203 0 0
  | .litCC => .symbol .litlen 204 0 0
  | .litCD => .symbol .litlen 205 0 0
  | .litCE => .symbol .litlen 206 0 0
  | .litCF => .symbol .litlen 207 0 0
  | .litD0 => .symbol .litlen 208 0 0
  | .litD1 => .symbol .litlen 209 0 0
  | .litD2 => .symbol .litlen 210 0 0
  | .litD3 => .symbol .litlen 211 0 0
  | .litD4 => .symbol .litlen 212 0 0
  | .litD5 => .symbol .litlen 213 0 0
  | .litD6 => .symbol .litlen 214 0 0
  | .litD7 => .symbol .litlen 215 0 0
  | .litD8 => .symbol .litlen 216 0 0
  | .litD9 => .symbol .litlen 217 0 0
  | .litDA => .symbol .litlen 218 0 0
  | .litDB => .symbol .litlen 219 0 0
  | .litDC => .symbol .litlen 220 0 0
  | .litDD => .symbol .litlen 221 0 0
  | .litDE => .symbol .litlen 222 0 0
  | .litDF => .symbol .litlen 223 0 0
  | .litE0 => .symbol .litlen 224 0 0
  | .litE1 => .symbol .litlen 225 0 0
  | .litE2 => .symbol .litlen 226 0 0
  | .litE3 => .symbol .litlen 227 0 0
  | .litE4 => .symbol .litlen 228 0 0
  | .litE5 => .symbol .litlen 229 0 0
  | .litE6 => .symbol .litlen 230 0 0
  | .litE7 => .symbol .litlen 231 0 0
  | .litE8 => .symbol .litlen 232 0 0
  | .litE9 => .symbol .litlen 233 0 0
  | .litEA => .symbol .litlen 234 0 0
  | .litEB => .symbol .litlen 235 0 0
  | .litEC => .symbol .litlen 236 0 0
  | .litED => .symbol .litlen 237 0 0
  | .litEE => .symbol .litlen 238 0 0
  | .litEF => .symbol .litlen 239 0 0
  | .litF0 => .symbol .litlen 240 0 0
  | .litF1 => .symbol .litlen 241 0 0
  | .litF2 => .symbol .litlen 242 0 0
  | .litF3 => .symbol .litlen 243 0 0
  | .litF4 => .symbol .litlen 244 0 0
  | .litF5 => .symbol .litlen 245 0 0
  | .litF6 => .symbol .litlen 246 0 0
  | .litF7 => .symbol .litlen 247 0 0
  | .litF8 => .symbol .litlen 248 0 0
  | .litF9 => .symbol .litlen 249 0 0
  | .litFA => .symbol .litlen 250 0 0
  | .litFB => .symbol .litlen 251 0 0
  | .litFC => .symbol .litlen 252 0 0
  | .litFD => .symbol .litlen 253 0 0
  | .litFE => .symbol .litlen 254 0 0
  | .litFF => .symbol .litlen 255 0 0
  | .eob => .symbol .litlen 256 0 0
  | .len257 => .symbol .litlen 257 0 0
  | .len258 => .symbol .litlen 258 0 0
  | .len259 => .symbol .litlen 259 0 0
  | .len260 => .symbol .litlen 260 0 0
  | .len261 => .symbol .litlen 261 0 0
  | .len262 => .symbol .litlen 262 0 0
  | .len263 => .symbol .litlen 263 0 0
  | .len264 => .symbol .litlen 264 0 0
  | .len265 x => .symbol .litlen 265 1 x.toNat
  | .len266 x => .symbol .litlen 266 1 x.toNat
  | .len267 x => .symbol .litlen 267 1 x.toNat
  | .len268 x => .symbol .litlen 268 1 x.toNat
  | .len269 x => .symbol .litlen 269 2 x.toNat
  | .len270 x => .symbol .litlen 270 2 x.toNat
  | .len271 x => .symbol .litlen 271 2 x.toNat
  | .len272 x => .symbol .litlen 272 2 x.toNat
  | .len273 x => .symbol .litlen 273 3 x.toNat
  | .len274 x => .symbol .litlen 274 3 x.toNat
  | .len275 x => .symbol .litlen 275 3 x.toNat
  | .len276 x => .symbol .litlen 276 3 x.toNat
  | .len277 x => .symbol .litlen 277 4 x.toNat
  | .len278 x => .symbol .litlen 278 4 x.toNat
  | .len279 x => .symbol .litlen 279 4 x.toNat
  | .len280 x => .symbol .litlen 280 4 x.toNat
  | .len281 x => .symbol .litlen 281 5 x.toNat
  | .len282 x => .symbol .litlen 282 5 x.toNat
  | .len283 x => .symbol .litlen 283 5 x.toNat
  | .len284 x => .symbol .litlen 284 5 x.toNat
  | .len285 => .symbol .litlen 285 0 0
  | .len286Reserved => .symbol .litlen 286 0 0
  | .len287Reserved => .symbol .litlen 287 0 0
  | .dist0 => .symbol .dist 0 0 0
  | .dist1 => .symbol .dist 1 0 0
  | .dist2 => .symbol .dist 2 0 0
  | .dist3 => .symbol .dist 3 0 0
  | .dist4 x => .symbol .dist 4 1 x.toNat
  | .dist5 x => .symbol .dist 5 1 x.toNat
  | .dist6 x => .symbol .dist 6 2 x.toNat
  | .dist7 x => .symbol .dist 7 2 x.toNat
  | .dist8 x => .symbol .dist 8 3 x.toNat
  | .dist9 x => .symbol .dist 9 3 x.toNat
  | .dist10 x => .symbol .dist 10 4 x.toNat
  | .dist11 x => .symbol .dist 11 4 x.toNat
  | .dist12 x => .symbol .dist 12 5 x.toNat
  | .dist13 x => .symbol .dist 13 5 x.toNat
  | .dist14 x => .symbol .dist 14 6 x.toNat
  | .dist15 x => .symbol .dist 15 6 x.toNat
  | .dist16 x => .symbol .dist 16 7 x.toNat
  | .dist17 x => .symbol .dist 17 7 x.toNat
  | .dist18 x => .symbol .dist 18 8 x.toNat
  | .dist19 x => .symbol .dist 19 8 x.toNat
  | .dist20 x => .symbol .dist 20 9 x.toNat
  | .dist21 x => .symbol .dist 21 9 x.toNat
  | .dist22 x => .symbol .dist 22 10 x.toNat
  | .dist23 x => .symbol .dist 23 10 x.toNat
  | .dist24 x => .symbol .dist 24 11 x.toNat
  | .dist25 x => .symbol .dist 25 11 x.toNat
  | .dist26 x => .symbol .dist 26 12 x.toNat
  | .dist27 x => .symbol .dist 27 12 x.toNat
  | .dist28 x => .symbol .dist 28 13 x.toNat
  | .dist29 x => .symbol .dist 29 13 x.toNat
  | .dist30Reserved => .symbol .dist 30 0 0
  | .dist31Reserved => .symbol .dist 31 0 0
  | .cl0 => .symbol .clsym 0 0 0
  | .cl1 => .symbol .clsym 1 0 0
  | .cl2 => .symbol .clsym 2 0 0
  | .cl3 => .symbol .clsym 3 0 0
  | .cl4 => .symbol .clsym 4 0 0
  | .cl5 => .symbol .clsym 5 0 0
  | .cl6 => .symbol .clsym 6 0 0
  | .cl7 => .symbol .clsym 7 0 0
  | .cl8 => .symbol .clsym 8 0 0
  | .cl9 => .symbol .clsym 9 0 0
  | .cl10 => .symbol .clsym 10 0 0
  | .cl11 => .symbol .clsym 11 0 0
  | .cl12 => .symbol .clsym 12 0 0
  | .cl13 => .symbol .clsym 13 0 0
  | .cl14 => .symbol .clsym 14 0 0
  | .cl15 => .symbol .clsym 15 0 0
  | .cl16Repeat x => .symbol .clsym 16 2 x.toNat
  | .cl17Zeros x => .symbol .clsym 17 3 x.toNat
  | .cl18Zeros x => .symbol .clsym 18 7 x.toNat

/-- The BTYPE rows by the three header bits (43_block_header_stored.md R192). -/
def btypeInstr (f : Bool) (t : BitVec 2) : Instr :=
  if t = 0 then .btype0Stored f
  else if t = 1 then .btype1Fixed f
  else if t = 2 then .btype2Dynamic f
  else .btype3Reserved f

/-- The literal rows by symbol, 0..255 (R98). -/
def literalRows : List Instr :=
  List.flatten [
    [.lit00, .lit01, .lit02, .lit03, .lit04, .lit05, .lit06, .lit07, .lit08, .lit09, .lit0A, .lit0B, .lit0C, .lit0D, .lit0E, .lit0F],
    [.lit10, .lit11, .lit12, .lit13, .lit14, .lit15, .lit16, .lit17, .lit18, .lit19, .lit1A, .lit1B, .lit1C, .lit1D, .lit1E, .lit1F],
    [.lit20, .lit21, .lit22, .lit23, .lit24, .lit25, .lit26, .lit27, .lit28, .lit29, .lit2A, .lit2B, .lit2C, .lit2D, .lit2E, .lit2F],
    [.lit30, .lit31, .lit32, .lit33, .lit34, .lit35, .lit36, .lit37, .lit38, .lit39, .lit3A, .lit3B, .lit3C, .lit3D, .lit3E, .lit3F],
    [.lit40, .lit41, .lit42, .lit43, .lit44, .lit45, .lit46, .lit47, .lit48, .lit49, .lit4A, .lit4B, .lit4C, .lit4D, .lit4E, .lit4F],
    [.lit50, .lit51, .lit52, .lit53, .lit54, .lit55, .lit56, .lit57, .lit58, .lit59, .lit5A, .lit5B, .lit5C, .lit5D, .lit5E, .lit5F],
    [.lit60, .lit61, .lit62, .lit63, .lit64, .lit65, .lit66, .lit67, .lit68, .lit69, .lit6A, .lit6B, .lit6C, .lit6D, .lit6E, .lit6F],
    [.lit70, .lit71, .lit72, .lit73, .lit74, .lit75, .lit76, .lit77, .lit78, .lit79, .lit7A, .lit7B, .lit7C, .lit7D, .lit7E, .lit7F],
    [.lit80, .lit81, .lit82, .lit83, .lit84, .lit85, .lit86, .lit87, .lit88, .lit89, .lit8A, .lit8B, .lit8C, .lit8D, .lit8E, .lit8F],
    [.lit90, .lit91, .lit92, .lit93, .lit94, .lit95, .lit96, .lit97, .lit98, .lit99, .lit9A, .lit9B, .lit9C, .lit9D, .lit9E, .lit9F],
    [.litA0, .litA1, .litA2, .litA3, .litA4, .litA5, .litA6, .litA7, .litA8, .litA9, .litAA, .litAB, .litAC, .litAD, .litAE, .litAF],
    [.litB0, .litB1, .litB2, .litB3, .litB4, .litB5, .litB6, .litB7, .litB8, .litB9, .litBA, .litBB, .litBC, .litBD, .litBE, .litBF],
    [.litC0, .litC1, .litC2, .litC3, .litC4, .litC5, .litC6, .litC7, .litC8, .litC9, .litCA, .litCB, .litCC, .litCD, .litCE, .litCF],
    [.litD0, .litD1, .litD2, .litD3, .litD4, .litD5, .litD6, .litD7, .litD8, .litD9, .litDA, .litDB, .litDC, .litDD, .litDE, .litDF],
    [.litE0, .litE1, .litE2, .litE3, .litE4, .litE5, .litE6, .litE7, .litE8, .litE9, .litEA, .litEB, .litEC, .litED, .litEE, .litEF],
    [.litF0, .litF1, .litF2, .litF3, .litF4, .litF5, .litF6, .litF7, .litF8, .litF9, .litFA, .litFB, .litFC, .litFD, .litFE, .litFF]]

/-- The rows of the symbols 256..287: end of block and lengths (R98), each waiting for its extra bits. -/
def lengthRows : List (Nat → Instr) :=
  List.flatten [
    [fun _ => .eob,
     fun _ => .len257,
     fun _ => .len258,
     fun _ => .len259,
     fun _ => .len260,
     fun _ => .len261,
     fun _ => .len262,
     fun _ => .len263],
    [fun _ => .len264,
     fun x => .len265 (BitVec.ofNat 1 x),
     fun x => .len266 (BitVec.ofNat 1 x),
     fun x => .len267 (BitVec.ofNat 1 x),
     fun x => .len268 (BitVec.ofNat 1 x),
     fun x => .len269 (BitVec.ofNat 2 x),
     fun x => .len270 (BitVec.ofNat 2 x),
     fun x => .len271 (BitVec.ofNat 2 x)],
    [fun x => .len272 (BitVec.ofNat 2 x),
     fun x => .len273 (BitVec.ofNat 3 x),
     fun x => .len274 (BitVec.ofNat 3 x),
     fun x => .len275 (BitVec.ofNat 3 x),
     fun x => .len276 (BitVec.ofNat 3 x),
     fun x => .len277 (BitVec.ofNat 4 x),
     fun x => .len278 (BitVec.ofNat 4 x),
     fun x => .len279 (BitVec.ofNat 4 x)],
    [fun x => .len280 (BitVec.ofNat 4 x),
     fun x => .len281 (BitVec.ofNat 5 x),
     fun x => .len282 (BitVec.ofNat 5 x),
     fun x => .len283 (BitVec.ofNat 5 x),
     fun x => .len284 (BitVec.ofNat 5 x),
     fun _ => .len285,
     fun _ => .len286Reserved,
     fun _ => .len287Reserved]]

/-- The distance rows by symbol, 0..31 (R99). -/
def distRows : List (Nat → Instr) :=
  List.flatten [
    [fun _ => .dist0,
     fun _ => .dist1,
     fun _ => .dist2,
     fun _ => .dist3,
     fun x => .dist4 (BitVec.ofNat 1 x),
     fun x => .dist5 (BitVec.ofNat 1 x),
     fun x => .dist6 (BitVec.ofNat 2 x),
     fun x => .dist7 (BitVec.ofNat 2 x)],
    [fun x => .dist8 (BitVec.ofNat 3 x),
     fun x => .dist9 (BitVec.ofNat 3 x),
     fun x => .dist10 (BitVec.ofNat 4 x),
     fun x => .dist11 (BitVec.ofNat 4 x),
     fun x => .dist12 (BitVec.ofNat 5 x),
     fun x => .dist13 (BitVec.ofNat 5 x),
     fun x => .dist14 (BitVec.ofNat 6 x),
     fun x => .dist15 (BitVec.ofNat 6 x)],
    [fun x => .dist16 (BitVec.ofNat 7 x),
     fun x => .dist17 (BitVec.ofNat 7 x),
     fun x => .dist18 (BitVec.ofNat 8 x),
     fun x => .dist19 (BitVec.ofNat 8 x),
     fun x => .dist20 (BitVec.ofNat 9 x),
     fun x => .dist21 (BitVec.ofNat 9 x),
     fun x => .dist22 (BitVec.ofNat 10 x),
     fun x => .dist23 (BitVec.ofNat 10 x)],
    [fun x => .dist24 (BitVec.ofNat 11 x),
     fun x => .dist25 (BitVec.ofNat 11 x),
     fun x => .dist26 (BitVec.ofNat 12 x),
     fun x => .dist27 (BitVec.ofNat 12 x),
     fun x => .dist28 (BitVec.ofNat 13 x),
     fun x => .dist29 (BitVec.ofNat 13 x),
     fun _ => .dist30Reserved,
     fun _ => .dist31Reserved]]

/-- The code-length rows by symbol, 0..18 (R97). -/
def clRows : List (Nat → Instr) :=
  List.flatten [
    [fun _ => .cl0,
     fun _ => .cl1,
     fun _ => .cl2,
     fun _ => .cl3,
     fun _ => .cl4,
     fun _ => .cl5,
     fun _ => .cl6,
     fun _ => .cl7,
     fun _ => .cl8,
     fun _ => .cl9],
    [fun _ => .cl10,
     fun _ => .cl11,
     fun _ => .cl12,
     fun _ => .cl13,
     fun _ => .cl14,
     fun _ => .cl15,
     fun x => .cl16Repeat (BitVec.ofNat 2 x),
     fun x => .cl17Zeros (BitVec.ofNat 3 x),
     fun x => .cl18Zeros (BitVec.ofNat 7 x)]]

/-- The element of a literal/length symbol with extra bits `x`; none for a symbol above 287. -/
def litlenInstr (sym x : Nat) : Option Instr :=
  if sym < 256 then literalRows[sym]? else (lengthRows[sym - 256]?).map (fun row => row x)

/-- The element of a distance symbol with extra bits `x`; none for a symbol above 31. -/
def distInstr (sym x : Nat) : Option Instr := (distRows[sym]?).map (fun row => row x)

/-- The element of a code-length symbol with extra bits `x`; none for a symbol above 18. -/
def clInstr (sym x : Nat) : Option Instr := (clRows[sym]?).map (fun row => row x)

end Sys2Proof.Machine
end

