-- ==== Sys2Proof/WellFormed.lean ====
section
/-!
DEFINITION. When an instruction can stand in a stream: the element kind is the one expected there, its symbol has a code in
the table in force, and its operands are the ones the decoder would read there. The widths of operands need no check, they
are in the types.
-/

namespace Sys2Proof

/-- The table gives the symbol a code (41_canonical_code.md R150: a symbol of length 0 has no entry). -/
def hasSymbol (code : Code) (sym : Nat) : Bool := code.any (fun e => e.sym.toNat == sym)

/-- The element can stand where `c` is expected. Three checks: the kind of element (R90); the symbol has a code in the
table in force (R100); a code-length symbol 16 that is the first of its header has no extra bits (R216), so its operand is 0
there. For the dispatch the header bits are the ones HDR read (R192). -/
def Instr.wf (c : Ctx) (i : Instr) : Bool :=
  match c with
  | .header => match i with
    | .hdr _ _ => true
    | _ => false
  | .dispatch f t => Machine.formOf i == .header f t
  | .storedLen => match i with
    | .storedLenNlen _ _ => true
    | _ => false
  | .hlit => match i with
    | .hlit _ => true
    | _ => false
  | .hdist => match i with
    | .hdist _ => true
    | _ => false
  | .hclen => match i with
    | .hclen _ => true
    | _ => false
  | .cllen => match i with
    | .cllen _ => true
    | _ => false
  | .clsym code first => match Machine.formOf i with
    | .symbol .clsym sym _ x => hasSymbol code sym && (!(first && sym == 16) || x == 0)
    | _ => false
  | .litlen code => match Machine.formOf i with
    | .symbol .litlen sym _ _ => hasSymbol code sym
    | _ => false
  | .dist code => match Machine.formOf i with
    | .symbol .dist sym _ _ => hasSymbol code sym
    | _ => false

end Sys2Proof
end

