-- ==== Sys2Proof/Decode.lean ====
section
/-!
DEFINITION. The decoder, from any source of bits to an instruction or a rejection by name, and after it the encoder. There
is one decoder: the machine's fetch runs it over its bit reader (Machine/Ops.lean), the tests and the round trip over a plain list
of bits.
-/

namespace Sys2Proof

/-- Something bits are drawn from: `next` answers the next bit, or none at the end of the stream (40_bit_reader.md R131), and
what is left of the source. -/
structure BitSource (σ : Type) where
  next : σ → Option Bool × σ

/-- The fields of an element that had been read whole before its bits ran out, where the spec writes them to a register
one by one (R191: BFINAL before BTYPE; R195: LEN before NLEN). -/
inductive Partial where
  | nothing
  | bfinal (f : Bool)
  | len (len : BitVec 16)
  deriving DecidableEq, Repr

/-- Why no instruction was decoded. `unexpectedEnd`: a bit was needed and the source had ended (R132, R158).
`argOutOfRange`: `readUint(n)` with `n` above 15 (R132). `decodeOverrun`: no code within 15 bits (R156, R157).
`valueRange`: a symbol above the alphabet (R214, R286). -/
inductive Reject where
  | unexpectedEnd (got : Partial)
  | argOutOfRange (n : Nat)
  | decodeOverrun
  | valueRange
  deriving DecidableEq, Repr

/-- What a read answers: a value or a rejection, each with what is left of the source. -/
inductive Got (σ α : Type) where
  | ok (a : α) (s : σ)
  | stop (r : Reject) (s : σ)
  deriving DecidableEq, Repr

/-- Go on with what was read; a rejection ends it all (00_scope.md R13). -/
def Got.bind {σ α β : Type} (g : Got σ α) (f : α → σ → Got σ β) : Got σ β :=
  match g with
  | .ok a s => f a s
  | .stop r s => .stop r s

/-- Record in an unexpected end which field had been read before. -/
def Got.noting {σ α : Type} (p : Partial) (g : Got σ α) : Got σ α :=
  match g with
  | .stop (.unexpectedEnd _) s => .stop (.unexpectedEnd p) s
  | g => g

namespace Machine

/-- The bits of `readUint`, least significant first (R132, 20_memory.md R68). -/
def readBits {σ : Type} (src : BitSource σ) : Nat → σ → Got σ Nat
  | 0, s => .ok 0 s
  | n + 1, s =>
    match src.next s with
    | (none, s') => .stop (.unexpectedEnd .nothing) s'
    | (some b, s') => (readBits src n s').bind fun v s'' => .ok (b.toNat + 2 * v) s''

/-- `readUint(n)` (R132): the range check comes before any bit is consumed. -/
def readUintFrom {σ : Type} (src : BitSource σ) (n : Nat) (s : σ) : Got σ Nat :=
  if Config.maxUint < n then .stop (.argOutOfRange n) s else readBits src n s

/-- `readU16()` (R135): two bytes, the low one first. -/
def readU16From {σ : Type} (src : BitSource σ) (s : σ) : Got σ (BitVec 16) :=
  (readUintFrom src 8 s).bind fun lo s =>
    (readUintFrom src 8 s).bind fun hi s => .ok (BitVec.ofNat 16 (lo + 256 * hi)) s

/-- One bit shifted into a key: `(key << 1) | bit` (R156). -/
def shiftIn (key : BitVec 16) (bit : Nat) : BitVec 16 := BitVec.ofNat 16 (2 * key.toNat + bit)

/-- The loop of `decodeSymbol` with `k` iterations left (R156). -/
def decodeLoop {σ : Type} (src : BitSource σ) (code : Code) : (k : Nat) → BitVec 16 → σ → Got σ Nat
  | 0, _, s => .stop .decodeOverrun s
  | k + 1, key, s =>
    (readUintFrom src 1 s).bind fun bit s =>
      match lookupKey code (shiftIn key bit) with
      | some sym => .ok sym.toNat s
      | none => decodeLoop src code k (shiftIn key bit) s

/-- `decodeSymbol(code)` (R156): from the sentinel value 1, at most 15 bits, the code's most significant bit first. -/
def decodeSymbolFrom {σ : Type} (src : BitSource σ) (code : Code) (s : σ) : Got σ Nat :=
  decodeLoop src code Config.maxLen 1 s

/-- A symbol outside its alphabet is a value the design proves impossible (R214, R286). -/
def orValueRange {σ : Type} (i : Option Instr) (s : σ) : Got σ Instr :=
  match i with
  | some i => .ok i s
  | none => .stop .valueRange s

/-- A symbol of a Huffman code, then its extra bits, `width` of the symbol many (R97 to R99). -/
def decodeElement {σ : Type} (src : BitSource σ) (code : Code) (width : Nat → Nat) (instr : Nat → Nat → Option Instr) (s : σ) :
    Got σ Instr :=
  (decodeSymbolFrom src code s).bind fun sym s =>
    (readUintFrom src (width sym) s).bind fun x s => orValueRange (instr sym x) s

/-- The extra bits the decoder reads after a code-length symbol: none after a symbol 16 that is the first of its header, for
the failure of R216 comes before they are read. -/
def clOperandBits (first : Bool) (sym : Nat) : Nat :=
  if first = true ∧ sym = 16 then 0 else clExtraBits sym

/-- The decoder: the element expected by `c`, read from the source, each format as R92 to R99 lay it out. The dispatch reads
no bit: its three are the header's (R192). -/
def decode {σ : Type} (src : BitSource σ) (c : Ctx) (s : σ) : Got σ Instr :=
  match c with
  | .header =>
    (readUintFrom src 1 s).bind fun f s =>
      ((readUintFrom src 2 s).noting (.bfinal (decide (f = 1)))).bind fun t s =>
        .ok (.hdr (decide (f = 1)) (BitVec.ofNat 2 t)) s
  | .dispatch f t => .ok (btypeInstr f t) s
  | .storedLen =>
    (readU16From src s).bind fun len s =>
      ((readU16From src s).noting (.len len)).bind fun nlen s => .ok (.storedLenNlen len nlen) s
  | .hlit => (readUintFrom src 5 s).bind fun v s => .ok (.hlit (BitVec.ofNat 5 v)) s
  | .hdist => (readUintFrom src 5 s).bind fun v s => .ok (.hdist (BitVec.ofNat 5 v)) s
  | .hclen => (readUintFrom src 4 s).bind fun v s => .ok (.hclen (BitVec.ofNat 4 v)) s
  | .cllen => (readUintFrom src Config.clLenBits s).bind fun v s => .ok (.cllen (BitVec.ofNat 3 v)) s
  | .clsym code first => decodeElement src code (clOperandBits first) clInstr s
  | .litlen code => decodeElement src code lengthExtraBits litlenInstr s
  | .dist code => decodeElement src code distExtraBits distInstr s

/-! ### Plain lists of bits -/

/-- A list of bits as a source: the stream is the list, first bit first. -/
def listBits : BitSource (List Bool) where
  next bits :=
    match bits with
    | [] => (none, [])
    | b :: rest => (some b, rest)

/-- The stream bits of a list of bytes: least significant first within each byte (00_scope.md R10, 20_memory.md R67). -/
def bytesToBits : List Byte → List Bool
  | [] => []
  | b :: bs => fieldBits 8 b.toNat ++ bytesToBits bs

/-- The value of a string of bits, least significant first. -/
def bitsValue : List Bool → Nat
  | [] => 0
  | b :: bs => b.toNat + 2 * bitsValue bs

/-- Bits packed into `n` bytes, least significant first within each byte, zero bits after the last. -/
def packBytes : (n : Nat) → List Bool → List Byte
  | 0, _ => []
  | n + 1, bits => BitVec.ofNat 8 (bitsValue (bits.take 8)) :: packBytes n (bits.drop 8)

/-! ### The encoder -/

/-- The bits of a number below its leading 1, most significant first, put before `acc`: a sentinel key's code in stream order
(R150, 20_memory.md R69). The first argument bounds the number of bits. -/
def keyBits : Nat → Nat → List Bool → List Bool
  | 0, _, acc => acc
  | n + 1, k, acc => if k ≤ 1 then acc else keyBits n (k / 2) (decide (k % 2 = 1) :: acc)

/-- The code of a symbol in stream order, none of a symbol the table lacks. -/
def symbolBits (code : Code) (sym : Nat) : List Bool :=
  match keyOfSymbol code sym with
  | some key => keyBits Config.maxLen key.toNat []
  | none => []

/-- The encoder (30_encoding.md sections 2 and 7): the bits that stand for a well-formed element where `c` is expected, in
stream order. The dispatch adds none to the header's. -/
def encode (c : Ctx) (i : Instr) : List Bool :=
  match formOf i with
  | .header _ _ => []
  | .field bits => bits
  | .symbol _ sym n x =>
    match c with
    | .clsym code first => symbolBits code sym ++ fieldBits (if first = true ∧ sym = 16 then 0 else n) x
    | .litlen code => symbolBits code sym ++ fieldBits n x
    | .dist code => symbolBits code sym ++ fieldBits n x
    | _ => []

/-! ### Words as the opcode table numbers them -/

/-- What a word of the opcode table is read as: a header value (30_encoding.md R109: "the 3-bit header read as one unsigned
value"), a stored block's lengths, or the code value of a symbol under the fixed codes, `L` bits wide. -/
inductive TableWord where
  | header (v : Nat)
  | lengths (v : Nat)
  | litlen (L v : Nat)
  | dist (v : Nat)
  deriving DecidableEq, Repr

/-- The reading of `w` in a row of `nbits` bits. A row's `match` is a number without its format, so one word can belong to
rows of several formats: log 17 says which reading is taken. -/
def readTableWord (nbits w : Nat) : Option TableWord :=
  if nbits = 32 then some (.lengths w)
  else if nbits = 3 then (if w < 8 then some (.header w) else none)
  else if nbits = 5 then (if w < 32 then some (.dist w) else none)
  else if nbits = 8 ∧ w < 8 ∧ w % 2 = 0 then some (.header w)
  else if nbits = 16 ∧ (w = 10 ∨ w = 11 ∨ w = 12) then some (.dist w)
  else if w < 24 then some (.litlen 7 w)
  else if w < 32 then some (.dist w)
  else if 48 ≤ w ∧ w < 200 then some (.litlen 8 w)
  else if 400 ≤ w ∧ w < 512 then some (.litlen 9 w)
  else none

/-- The low `n` bits of `w`, most significant first: a code value in stream order (20_memory.md R69). -/
def codeValueBits (n w : Nat) : List Bool := (fieldBits n w).reverse

/-- The stream bits of a table word, zero bits after them up to the longest operand, and what is expected where they
stand. -/
def TableWord.stream : TableWord → Ctx × List Bool
  | .header v => (.dispatch (decide (v % 2 = 1)) (BitVec.ofNat 2 (v / 2)), [])
  | .lengths v => (.storedLen, fieldBits 32 v)
  | .litlen L v => (.litlen fixedLLCode, codeValueBits L v ++ List.replicate 13 false)
  | .dist v => (.dist fixedDCode, codeValueBits 5 v ++ List.replicate 13 false)

end Machine

/-- The instruction the decoder reads from a word numbered as spec/opcode_table.json numbers it; none where it refuses. -/
def decodeTableWord (nbits w : Nat) : Option Instr :=
  match Machine.readTableWord nbits w with
  | none => none
  | some tw =>
    match Machine.decode Machine.listBits tw.stream.1 tw.stream.2 with
    | .ok i _ => some i
    | .stop _ _ => none

end Sys2Proof
end

