-- ==== Sys2Proof/Machine/State.lean ====
section
/-!
DEFINITION. The state, whole, and its reset value; the reasons a step can stop. Plain data throughout. The parts carry the
spec's own names: `br` the bit reader, `hb` the history buffer, `bd` the block decoder, `src` and `out` the environment.
-/

namespace Sys2Proof.Machine

/-! ### The failure record -/

/-- The three failure classes (60_exceptions.md R270). -/
inductive FailClass where
  | malformed
  | truncated
  | internal
  deriving DecidableEq, Repr

/-- The causes (R272 to R286). `bitCountRange` is raised nowhere: `br.rem` is a 3-bit field, so the condition of R284 is
unrepresentable, as R287 allows (log 11). -/
inductive Cause where
  | reservedBlockType
  | storedLenMismatch
  | codeOverfull
  | codeUnderfull
  | repeatWithoutPrevious
  | runExceedsCount
  | reservedLengthSymbol
  | noDistanceCode
  | reservedDistanceSymbol
  | invalidLengthOrDistance
  | unexpectedEnd
  | argOutOfRange
  | bitCountRange
  | decodeOverrun
  | valueRange
  deriving DecidableEq, Repr

/-- `bd.err`, the failure record `(class, cause, info)` (R271). -/
structure ErrRecord where
  cls   : FailClass
  cause : Cause
  info  : BitVec 8
  deriving DecidableEq, Repr

/-! ### The environment and the registers -/

/-- The byte source: `SRC`, the whole input, fixed for the run, and `src.pos`, the bytes handed over so far
(10_state.md R21, R26; 20_memory.md R61). -/
structure Source where
  bytes : List (BitVec 8)
  pos   : Nat
  deriving DecidableEq, Repr

/-- The bit reader's registers (10_state.md R22 to R24). -/
structure BitReader where
  cur : BitVec 8
  rem : BitVec 3
  eos : Bool
  deriving DecidableEq, Repr

/-- The contents of the history buffer's 32768 bytes, all of which exist from reset (10_state.md R29): the bytes that differ
from `Memory.blank` (Ops.lean, log 6), as (index, byte) pairs with strictly rising indices. An index that is not listed holds
`Memory.blank`. -/
abbrev Memory := List Host.Cell

/-- The history buffer's registers (10_state.md R29 to R31). -/
structure History where
  mem  : Memory
  cur  : BitVec 15
  fill : BitVec 16
  deriving DecidableEq, Repr

/-- `bd.phase` (10_state.md R33). -/
inductive Phase where
  | readingHeader
  | storedBlock
  | fixedHuffmanBlock
  | dynamicHuffmanBlock
  | done
  | failed
  deriving DecidableEq, Repr

/-- The element kind expected next, THE MODEL'S OWN control field (log 1): 10_state.md R28 leaves it to `bd.phase` and the
other registers, which do not tell all the kinds apart. -/
inductive Expect where
  | header
  | dispatch
  | storedLen
  | hlit
  | hdist
  | hclen
  | cllen
  | clsym
  | litlen
  | dist
  deriving DecidableEq, Repr

/-- The block decoder's registers (10_state.md R33 to R43), then the model's own three (logs 1 and 5): `expect`; `clPos`, the
counter `i` of 44_dynamic_header.md R212; `runLen`, the local `len` of 45_huffman_body.md R240. -/
structure BlockDecoder where
  phase    : Phase
  bfinal   : Bool
  btype    : BitVec 2
  len      : BitVec 16
  nlen     : BitVec 16
  cnt      : BitVec 16
  hlit     : BitVec 5
  hdist    : BitVec 5
  hclen    : BitVec 4
  clLen    : Vector (BitVec 3) 19
  codeLen  : Vector (BitVec 4) 320
  idx      : BitVec 9
  clCode   : Code
  llCode   : Code
  dCode    : Code
  useFixed : Bool
  dPresent : Bool
  err      : Option ErrRecord
  expect   : Expect
  clPos    : BitVec 5
  runLen   : BitVec 9
  deriving DecidableEq, Repr

/-- The whole machine: the environment's byte source, the three units' registers, and `OUT`, what the sink has received
(10_state.md R46). -/
structure State where
  src : Source
  br  : BitReader
  hb  : History
  bd  : BlockDecoder
  out : List (BitVec 8)
  deriving DecidableEq, Repr

/-- What the host can see (10_state.md R43): the phase, and the failure record as the numbers of R271. Class 0 says that there
is no failure (R271); cause and info are 0 with it (DESIGN CHOICE, log 24: the spec shows a record in phase `Failed` only). -/
structure Status where
  phase : Phase
  cls   : BitVec 2
  cause : BitVec 8
  info  : BitVec 8
  deriving DecidableEq, Repr

/-! ### How a step can stop -/

/-- Why the machine stops without a next state: for no reason, so there is no constructor. The decode failures of
60_exceptions.md are no faults, each is a next state in phase `Failed`; and every index of the history buffer holds a byte. -/
inductive Fault where
  deriving DecidableEq, Repr

/-- Why an instruction has no meaning. No arm of `exec` refuses. -/
inductive Refusal where
  /-- Raised by an arm of `exec` for an instruction that has no meaning yet; no arm is left that does. SAFE. -/
  | notModelled (mnemonic : String)
  deriving DecidableEq, Repr

/-! ### Reset -/

/-- The block decoder after reset. R44 gives `phase`, `bfinal`, `btype`, `useFixed`, `dPresent` and `err`; it calls the rest
unspecified, and they are 0 here by the model's choice (DESIGN CHOICE, log 4; `expect`, `clPos`, `runLen`: log 5). -/
def BlockDecoder.reset : BlockDecoder where
  phase    := .readingHeader
  bfinal   := false
  btype    := 0
  len      := 0
  nlen     := 0
  cnt      := 0
  hlit     := 0
  hdist    := 0
  hclen    := 0
  clLen    := Vector.replicate 19 0
  codeLen  := Vector.replicate 320 0
  idx      := 0
  clCode   := []
  llCode   := []
  dCode    := []
  useFixed := false
  dPresent := false
  err      := none
  expect   := .header
  clPos    := 0
  runLen   := 0

/-- The state after reset (10_state.md R44), the byte source holding no program (log 3). `br.cur` is unspecified there and 0
here (DESIGN CHOICE, log 4); so are the history buffer's bytes, each `Memory.blank` (DESIGN CHOICE, log 6). -/
def State.reset : State where
  src := { bytes := [], pos := 0 }
  br  := { cur := 0, rem := 0, eos := false }
  hb  := { mem := [], cur := 0, fill := 0 }
  bd  := BlockDecoder.reset
  out := []

end Sys2Proof.Machine
end

