-- ==== Sys2Proof/Machine/Ops.lean ====
section
/-!
DEFINITION. The named operations: raising a failure and reset; the byte source, the bit reader and the sink; the history
buffer.
-/

namespace Sys2Proof.Machine

/-! ### Failures: entry, and the only way out -/

/-- The class of a cause (60_exceptions.md R272 to R286). -/
def Cause.cls : Cause → FailClass
  | .reservedBlockType | .storedLenMismatch | .codeOverfull | .codeUnderfull | .repeatWithoutPrevious
  | .runExceedsCount | .reservedLengthSymbol | .noDistanceCode | .reservedDistanceSymbol
  | .invalidLengthOrDistance => .malformed
  | .unexpectedEnd => .truncated
  | .argOutOfRange | .bitCountRange | .decodeOverrun | .valueRange => .internal

/-- The number of a class (R271). -/
def FailClass.code : FailClass → BitVec 2
  | .malformed => 1
  | .truncated => 2
  | .internal => 3

/-- The number of a cause (R272 to R286). -/
def Cause.code : Cause → BitVec 8
  | .reservedBlockType => 0x01
  | .storedLenMismatch => 0x02
  | .codeOverfull => 0x03
  | .codeUnderfull => 0x04
  | .repeatWithoutPrevious => 0x05
  | .runExceedsCount => 0x06
  | .reservedLengthSymbol => 0x07
  | .noDistanceCode => 0x08
  | .reservedDistanceSymbol => 0x09
  | .invalidLengthOrDistance => 0x0A
  | .unexpectedEnd => 0x20
  | .argOutOfRange => 0x40
  | .bitCountRange => 0x41
  | .decodeOverrun => 0x42
  | .valueRange => 0x43

/-- `raise` (00_scope.md R13, 60_exceptions.md R290): the record and the phase are written, nothing else. The class is the
cause's. -/
def raise (cause : Cause) (info : BitVec 8) (s : State) : State :=
  { s with bd.err := some ⟨cause.cls, cause, info⟩, bd.phase := .failed }

/-- Reset, at the host's will (70_reset_and_hazards.md R310, 60_exceptions.md R293): every register at its reset value, the
byte source rewound to the start of the stream, the sink empty. There is no other return from a failure. -/
def hostReset (s : State) : State :=
  { State.reset with src := { s.src with pos := 0 } }

/-- The state in which the run on `bytes` starts: reset, and a byte source that holds them (R313). -/
def startOn (bytes : List Byte) : State :=
  { State.reset with src := { bytes := bytes, pos := 0 } }

/-- The status the host reads (10_state.md R43, 60_exceptions.md R271). Where there is no failure R271 gives class 0 and says
nothing of cause and info: they read 0 (DESIGN CHOICE, log 24). -/
def readStatus (s : State) : Status :=
  match s.bd.err with
  | none => ⟨s.bd.phase, 0, 0, 0⟩
  | some e => ⟨s.bd.phase, e.cls.code, e.cause.code, e.info⟩

/-- The run has ended (R320). -/
def ended (s : State) : Bool := s.bd.phase == .done || s.bd.phase == .failed

/-! ### The byte source and the sink -/

/-- `SrcNext()` (20_memory.md R61): the next byte, or none for `End`, which changes nothing. -/
def srcNext (s : State) : Option Byte × State :=
  match s.src.bytes[s.src.pos]? with
  | some b => (some b, { s with src.pos := s.src.pos + 1 })
  | none => (none, s)

/-- `SinkPut(b)` (20_memory.md R63): the sink always accepts (log 14). -/
def sinkPut (b : Byte) (s : State) : State := { s with out := s.out ++ [b] }

/-! ### The bit reader -/

/-- `readBitOrEnd()` (40_bit_reader.md R131); none stands for `EndOfStream`. -/
def readBitOrEnd (s : State) : Option Bool × State :=
  if s.br.eos then (none, s)
  else if s.br.rem = 0 then
    match srcNext s with
    | (none, s') => (none, { s' with br.eos := true })
    | (some b, s') => (some (b.getLsbD 0), { s' with br.cur := b, br.rem := 7 })
  else (some (s.br.cur.getLsbD (8 - s.br.rem.toNat)), { s with br.rem := s.br.rem - 1 })

/-- The bit reader as the source of bits the decoder draws from. -/
def bitReader : BitSource State where
  next := readBitOrEnd

/-- `readUint(n)` over the bit reader (R132). -/
def readUint (n : Nat) (s : State) : Got State Nat := readUintFrom bitReader n s

/-- `readU16()` over the bit reader (R135). -/
def readU16 (s : State) : Got State (BitVec 16) := readU16From bitReader s

/-- `decodeSymbol(code)` over the bit reader (41_canonical_code.md R156). -/
def decodeSymbol (code : Code) (s : State) : Got State Nat := decodeSymbolFrom bitReader code s

/-- `bitPosition()` (R133). -/
def bitPosition (s : State) : Nat := (8 - s.br.rem.toNat) % 8

/-- `bitpos`, the program counter (10_state.md R27, 00_scope.md R14): derived, never stored. -/
def bitpos (s : State) : Nat := 8 * s.src.pos - s.br.rem.toNat

/-- The loop of `alignToByte()`: at most `k` bits, until the position is 0. -/
def alignLoop : (k : Nat) → State → Got State Unit
  | 0, s => .ok () s
  | k + 1, s => if bitPosition s = 0 then .ok () s else (readUint 1 s).bind fun _ s => alignLoop k s

/-- `alignToByte()` (R134): at most 7 bits, their values ignored. -/
def alignToByte (s : State) : Got State Unit := alignLoop 7 s

/-- A field that had been read whole before the bits of its element ran out is in its register (R191, R195; log 22). -/
def latch (got : Partial) (s : State) : State :=
  match got with
  | .nothing => s
  | .bfinal f => { s with bd.bfinal := f }
  | .len len => { s with bd.len := len }

/-- The failure a rejected read raises (R282, R283, R285, R286). R271 records the offending `n` of `ARG_OUT_OF_RANGE` in an
8-bit info and does not say how an `n` above 255 is recorded: here it is `n` modulo 256 (DESIGN CHOICE, log 23; no element
asks for more than 13 bits, so none reaches it). -/
def raiseReject (r : Reject) (s : State) : State :=
  match r with
  | .unexpectedEnd got => raise .unexpectedEnd 0 (latch got s)
  | .argOutOfRange n => raise .argOutOfRange (BitVec.ofNat 8 n) s
  | .decodeOverrun => raise .decodeOverrun 0 s
  | .valueRange => raise .valueRange 0 s

/-- The failure a rejected construction raises (R274, R275), `which` telling the code: 0 `CL`, 1 `LL`, 2 `D` (R271). -/
def raiseBuild (e : BuildError) (which : BitVec 8) (s : State) : State :=
  match e with
  | .overfull => raise .codeOverfull which s
  | .underfull => raise .codeUnderfull which s

/-! ### The history buffer -/

/-- What every byte of the history buffer holds at reset, and an unlisted index reads as. 10_state.md R44 leaves it
unspecified: 0 (DESIGN CHOICE, log 6). -/
def Memory.blank : Byte := 0

/-- The canonical form: strictly rising indices, all within the capacity (20_memory.md R65), and no entry equal to what an
unlisted index reads as. -/
abbrev Memory.wf (m : Memory) : Prop :=
  m.Pairwise (fun a b => a.1 < b.1) ∧ ∀ c ∈ m, c.1 < Config.capacity ∧ c.2 ≠ Memory.blank

/-- `MemRead(a, 1)` (R65). -/
def Memory.read : Memory → Nat → Byte
  | [], _ => blank
  | (k, b) :: m, a => if a = k then b else Memory.read m a

/-- An entry put before a list, unless an unlisted index reads the same. -/
def Memory.put (a : Nat) (b : Byte) (m : Memory) : Memory := if b = blank then m else (a, b) :: m

/-- `MemWrite(a, 1, b)` (R65), keeping the canonical form. -/
def Memory.write : Memory → Nat → Byte → Memory
  | [], a, b => put a b []
  | (k, c) :: m, a, b =>
    if a < k then put a b ((k, c) :: m)
    else if a = k then put a b m
    else (k, c) :: Memory.write m a b

/-- `append(b)` (42_history_buffer.md R171). The cursor is 15 bits wide, so its addition is modulo `C` (R177). -/
def append (b : Byte) (s : State) : State :=
  { s with hb := {
      mem := s.hb.mem.write s.hb.cur.toNat b
      cur := s.hb.cur + 1
      fill := BitVec.ofNat 16 (min (s.hb.fill.toNat + 1) Config.capacity) } }

/-- A byte goes to the sink and then to the history buffer (20_memory.md R64). -/
def emit (b : Byte) (s : State) : State := append b (sinkPut b s)

/-- The loop of `copy` with `k` bytes left, reading at `r` (R172): read, send, append, then the next read. -/
def copyLoop : (k : Nat) → (r : BitVec 15) → State → State
  | 0, _, s => s
  | k + 1, r, s => copyLoop k (r + 1) (emit (s.hb.mem.read r.toNat) s)

/-- `copy(distance, length)` (R172, R173): the check is made once, before any byte is read. A negative length is
unrepresentable. -/
def copy (distance length : Nat) (s : State) : State :=
  if distance < 1 ∨ s.hb.fill.toNat < distance then raise .invalidLengthOrDistance 0 s
  else copyLoop length (s.hb.cur - BitVec.ofNat 15 distance) s

/-! ### The end of a block -/

/-- R200 (43_block_header_stored.md): `Done` after the final block, the next header otherwise. -/
def endOfBlock (s : State) : State :=
  if s.bd.bfinal then { s with bd.phase := .done }
  else { s with bd.phase := .readingHeader, bd.expect := .header }

end Sys2Proof.Machine
end

