-- ==== Sys2Proof/Machine/Flags.lean ====
section
/-!
DEFINITION. The one-bit conditions of 10_state.md R42 that select something: which codes a block's body uses, and whether it
has a distance code. (`br.eos` is set and read in `readBitOrEnd`, `bd.bfinal` is read in `endOfBlock`.)
-/

namespace Sys2Proof.Machine

/-- `LL`: the literal/length code in force (45_huffman_body.md, head of the file; 10_state.md R40). -/
def litlenCode (s : State) : Code := if s.bd.useFixed then fixedLLCode else s.bd.llCode

/-- `D`: the distance code in force (R40). -/
def distCode (s : State) : Code := if s.bd.useFixed then fixedDCode else s.bd.dCode

/-- A fixed block's flags: the constant tables, and a distance code (43_block_header_stored.md R199). -/
def setFixedFlags (s : State) : State := { s with bd.useFixed := true, bd.dPresent := true }

/-- A dynamic block's flags: the tables just built, with or without a distance code (44_dynamic_header.md R210, R223 to
R225). -/
def setDynamicFlags (dPresent : Bool) (s : State) : State :=
  { s with bd.useFixed := false, bd.dPresent := dPresent }

end Sys2Proof.Machine
end

