-- ==== Sys2Proof/Machine/Fetch.lean ====
section
/-!
DEFINITION. Fetching the next instruction: what is expected where the bit cursor stands, and the decoder run over the bit
reader there.
-/

namespace Sys2Proof.Machine

/-- What the decoder expects, with the tables in force (45_huffman_body.md R240, 44_dynamic_header.md R214). -/
def ctxOf (s : State) : Ctx :=
  match s.bd.expect with
  | .header => .header
  | .dispatch => .dispatch s.bd.bfinal s.bd.btype
  | .storedLen => .storedLen
  | .hlit => .hlit
  | .hdist => .hdist
  | .hclen => .hclen
  | .cllen => .cllen
  | .clsym => .clsym s.bd.clCode (decide (s.bd.idx = 0))
  | .litlen => .litlen (litlenCode s)
  | .dist => .dist (distCode s)

/-- Fetch: the bits of the next element are consumed and decoded. -/
def fetch (s : State) : Got State Instr := decode bitReader (ctxOf s) s

end Sys2Proof.Machine
end

