-- ==== Sys2Proof/Machine/BlockHeader.lean ====
section
/-!
DEFINITION. The block header (43_block_header_stored.md): the element HDR, and the dispatch on BTYPE with what each type
does before its body's first element.
-/

namespace Sys2Proof.Machine

/-- `HDR` (R191): the final-block flag and the block type. BFINAL is acted on at the end of the block only (R200). -/
def execHdr (f : Bool) (t : BitVec 2) (s : State) : Host.Outcome State Fault Refusal :=
  .next { s with bd.bfinal := f, bd.btype := t, bd.expect := .dispatch }

/-- `BTYPE0_STORED` (R190, R194): phase `StoredBlock`, then the bits up to the byte boundary are discarded. BFINAL has no
influence (R192). -/
def execBtype0Stored (_f : Bool) (s : State) : Host.Outcome State Fault Refusal :=
  match alignToByte { s with bd.phase := .storedBlock } with
  | .ok _ s' => .next { s' with bd.expect := .storedLen }
  | .stop r s' => .next (raiseReject r s')

/-- `BTYPE1_FIXED` (R190, R199): phase `FixedHuffmanBlock`, the constant tables, and the body follows at once. -/
def execBtype1Fixed (_f : Bool) (s : State) : Host.Outcome State Fault Refusal :=
  .next { setFixedFlags s with bd.phase := .fixedHuffmanBlock, bd.expect := .litlen }

/-- `BTYPE2_DYNAMIC` (R190, 44_dynamic_header.md R210): phase `DynamicHuffmanBlock`, and the code header follows. -/
def execBtype2Dynamic (_f : Bool) (s : State) : Host.Outcome State Fault Refusal :=
  .next { s with bd.phase := .dynamicHuffmanBlock, bd.expect := .hlit }

/-- `BTYPE3_RESERVED` (R193): the failure of R272, no further bit consumed. -/
def execBtype3Reserved (_f : Bool) (s : State) : Host.Outcome State Fault Refusal :=
  .next (raise .reservedBlockType 0 s)

end Sys2Proof.Machine
end

