-- ==== Sys2Proof/Machine/Distances.lean ====
section
/-!
DEFINITION. The distance symbols of a Huffman-coded block body and the copy they complete (45_huffman_body.md R248 to R254).
-/

namespace Sys2Proof.Machine

/-- A distance symbol of distance `dist` (R249, R250, R253): the copy of the waiting run length. A run length outside 3..258
is a value the design proves impossible (60_exceptions.md R286). -/
def distanceSymbol (dist : Nat) (s : State) : Host.Outcome State Fault Refusal :=
  if s.bd.runLen.toNat < Config.minMatch ∨ Config.maxMatch < s.bd.runLen.toNat then .next (raise .valueRange 0 s)
  else .next (copy dist s.bd.runLen.toNat { s with bd.expect := .litlen })

/-- A reserved distance symbol (R251): the failure of R280, no copy. -/
def reservedDistance (s : State) : Host.Outcome State Fault Refusal :=
  .next (raise .reservedDistanceSymbol 0 s)

/-! The distances: the base is the row's (30_encoding.md R104), `x` the extra bits. -/

def execDist0 (s : State) : Host.Outcome State Fault Refusal := distanceSymbol 1 s
def execDist1 (s : State) : Host.Outcome State Fault Refusal := distanceSymbol 2 s
def execDist2 (s : State) : Host.Outcome State Fault Refusal := distanceSymbol 3 s
def execDist3 (s : State) : Host.Outcome State Fault Refusal := distanceSymbol 4 s
def execDist4 (x : BitVec 1) (s : State) : Host.Outcome State Fault Refusal := distanceSymbol (5 + x.toNat) s
def execDist5 (x : BitVec 1) (s : State) : Host.Outcome State Fault Refusal := distanceSymbol (7 + x.toNat) s
def execDist6 (x : BitVec 2) (s : State) : Host.Outcome State Fault Refusal := distanceSymbol (9 + x.toNat) s
def execDist7 (x : BitVec 2) (s : State) : Host.Outcome State Fault Refusal := distanceSymbol (13 + x.toNat) s
def execDist8 (x : BitVec 3) (s : State) : Host.Outcome State Fault Refusal := distanceSymbol (17 + x.toNat) s
def execDist9 (x : BitVec 3) (s : State) : Host.Outcome State Fault Refusal := distanceSymbol (25 + x.toNat) s
def execDist10 (x : BitVec 4) (s : State) : Host.Outcome State Fault Refusal := distanceSymbol (33 + x.toNat) s
def execDist11 (x : BitVec 4) (s : State) : Host.Outcome State Fault Refusal := distanceSymbol (49 + x.toNat) s
def execDist12 (x : BitVec 5) (s : State) : Host.Outcome State Fault Refusal := distanceSymbol (65 + x.toNat) s
def execDist13 (x : BitVec 5) (s : State) : Host.Outcome State Fault Refusal := distanceSymbol (97 + x.toNat) s
def execDist14 (x : BitVec 6) (s : State) : Host.Outcome State Fault Refusal := distanceSymbol (129 + x.toNat) s
def execDist15 (x : BitVec 6) (s : State) : Host.Outcome State Fault Refusal := distanceSymbol (193 + x.toNat) s
def execDist16 (x : BitVec 7) (s : State) : Host.Outcome State Fault Refusal := distanceSymbol (257 + x.toNat) s
def execDist17 (x : BitVec 7) (s : State) : Host.Outcome State Fault Refusal := distanceSymbol (385 + x.toNat) s
def execDist18 (x : BitVec 8) (s : State) : Host.Outcome State Fault Refusal := distanceSymbol (513 + x.toNat) s
def execDist19 (x : BitVec 8) (s : State) : Host.Outcome State Fault Refusal := distanceSymbol (769 + x.toNat) s
def execDist20 (x : BitVec 9) (s : State) : Host.Outcome State Fault Refusal := distanceSymbol (1025 + x.toNat) s
def execDist21 (x : BitVec 9) (s : State) : Host.Outcome State Fault Refusal := distanceSymbol (1537 + x.toNat) s
def execDist22 (x : BitVec 10) (s : State) : Host.Outcome State Fault Refusal := distanceSymbol (2049 + x.toNat) s
def execDist23 (x : BitVec 10) (s : State) : Host.Outcome State Fault Refusal := distanceSymbol (3073 + x.toNat) s
def execDist24 (x : BitVec 11) (s : State) : Host.Outcome State Fault Refusal := distanceSymbol (4097 + x.toNat) s
def execDist25 (x : BitVec 11) (s : State) : Host.Outcome State Fault Refusal := distanceSymbol (6145 + x.toNat) s
def execDist26 (x : BitVec 12) (s : State) : Host.Outcome State Fault Refusal := distanceSymbol (8193 + x.toNat) s
def execDist27 (x : BitVec 12) (s : State) : Host.Outcome State Fault Refusal := distanceSymbol (12289 + x.toNat) s
def execDist28 (x : BitVec 13) (s : State) : Host.Outcome State Fault Refusal := distanceSymbol (16385 + x.toNat) s
def execDist29 (x : BitVec 13) (s : State) : Host.Outcome State Fault Refusal := distanceSymbol (24577 + x.toNat) s
def execDist30Reserved (s : State) : Host.Outcome State Fault Refusal := reservedDistance s
def execDist31Reserved (s : State) : Host.Outcome State Fault Refusal := reservedDistance s

end Sys2Proof.Machine
end

