-- ==== Sys2Proof/Machine/DynamicHeader.lean ====
section
/-!
DEFINITION. The dynamic-Huffman block header (44_dynamic_header.md): the counts, the code-length-code lengths, the
code-length symbols, and the construction of the block's codes.
-/

namespace Sys2Proof.Machine

/-- `n`, the number of code lengths the header declares (R214). -/
def codeLenCount (s : State) : Nat := countLL s.bd.hlit + countD s.bd.hdist

/-! ### The counts and the code-length-code lengths -/

/-- `HLIT` (R211). -/
def execHlit (h : BitVec 5) (s : State) : Host.Outcome State Fault Refusal :=
  .next { s with bd.hlit := h, bd.expect := .hdist }

/-- `HDIST` (R211). -/
def execHdist (d : BitVec 5) (s : State) : Host.Outcome State Fault Refusal :=
  .next { s with bd.hdist := d, bd.expect := .hclen }

/-- `HCLEN` (R211), then the clearing of the array that opens `readClLens()` (R212). -/
def execHclen (c : BitVec 4) (s : State) : Host.Outcome State Fault Refusal :=
  .next { s with bd.hclen := c, bd.clLen := Vector.replicate 19 0, bd.clPos := 0, bd.expect := .cllen }

/-- The code-length code (R213), with the start of `readCodeLens()` (R214). -/
def buildClCode (s : State) : State :=
  match build (s.bd.clLen.toList.map (BitVec.setWidth 4)) with
  | .error e => raiseBuild e 0 s
  | .ok code => { s with bd.clCode := code, bd.idx := 0, bd.expect := .clsym }

/-- `CLLEN` (R212): the next entry in scan order; after the `ncl`-th the code-length code is built (R213). A counter already
at `ncl` is a value the design proves impossible (60_exceptions.md R286, log 11). -/
def execCllen (v : BitVec 3) (s : State) : Host.Outcome State Fault Refusal :=
  if countCl s.bd.hclen ≤ s.bd.clPos.toNat then .next (raise .valueRange 0 s)
  else
    let t := { s with
      bd.clLen := s.bd.clLen.setIfInBounds (Config.clOrder.getD s.bd.clPos.toNat 0) v
      bd.clPos := s.bd.clPos + 1 }
    if s.bd.clPos.toNat + 1 = countCl s.bd.hclen then .next (buildClCode t) else .next t

/-! ### The block's two codes -/

/-- The distance lengths as `build` gets them (R224): a single code of length 1 is joined by a synthetic one in slot 31 of
an array extended with zeros to 32 entries; every other array is left as it is (R225). -/
def padDistLens (lens : List (BitVec 4)) : List (BitVec 4) :=
  if lens.countP (fun l => l == 1) = 1 ∧ lens.countP (fun l => decide (1 < l.toNat)) = 0 then
    (lens ++ List.replicate (32 - lens.length) 0).set Config.padSlot 1
  else lens

/-- The distance code (R223 to R225): none where the one length is 0, else built; then the block's body (R210). -/
def buildDistCode (lens : List (BitVec 4)) (s : State) : State :=
  if lens = [0] then { setDynamicFlags false s with bd.expect := .litlen }
  else
    match build (padDistLens lens) with
    | .error e => raiseBuild e 2 s
    | .ok code => { setDynamicFlags true s with bd.dCode := code, bd.expect := .litlen }

/-- `splitAndBuild()` (R221 to R226): the literal/length code is built before the distance lengths are looked at. -/
def splitAndBuild (s : State) : State :=
  match build (s.bd.codeLen.toList.take (countLL s.bd.hlit)) with
  | .error e => raiseBuild e 1 s
  | .ok code =>
    buildDistCode ((s.bd.codeLen.toList.drop (countLL s.bd.hlit)).take (countD s.bd.hdist)) { s with bd.llCode := code }

/-! ### The code-length symbols -/

/-- `run` entries from index `i` on set to `val`. -/
def setRun (lens : Vector (BitVec 4) 320) (i : Nat) (val : BitVec 4) : (run : Nat) → Vector (BitVec 4) 320
  | 0 => lens
  | run + 1 => setRun (lens.setIfInBounds i val) (i + 1) val run

/-- `run` code lengths of value `val` (R214 to R219): the overflow test comes before any entry is written; when all `n` are
there the block's codes are built. An index already at `n` is a value the design proves impossible (60_exceptions.md R286,
log 11). -/
def codeLengthRun (run : Nat) (val : BitVec 4) (s : State) : Host.Outcome State Fault Refusal :=
  if codeLenCount s ≤ s.bd.idx.toNat then .next (raise .valueRange 0 s)
  else if codeLenCount s < s.bd.idx.toNat + run then .next (raise .runExceedsCount 0 s)
  else
    let t := { s with
      bd.codeLen := setRun s.bd.codeLen s.bd.idx.toNat val run
      bd.idx := BitVec.ofNat 9 (s.bd.idx.toNat + run) }
    if s.bd.idx.toNat + run = codeLenCount s then .next (splitAndBuild t) else .next t

/-- The entry just before `bd.idx`, which symbol 16 repeats (R216). -/
def previousLength (s : State) : BitVec 4 := (s.bd.codeLen[s.bd.idx.toNat - 1]?).getD 0

/-! `CL_0` to `CL_15` (R215): the symbol number is the next code length. -/

def execCl0 (s : State) : Host.Outcome State Fault Refusal := codeLengthRun 1 0 s
def execCl1 (s : State) : Host.Outcome State Fault Refusal := codeLengthRun 1 1 s
def execCl2 (s : State) : Host.Outcome State Fault Refusal := codeLengthRun 1 2 s
def execCl3 (s : State) : Host.Outcome State Fault Refusal := codeLengthRun 1 3 s
def execCl4 (s : State) : Host.Outcome State Fault Refusal := codeLengthRun 1 4 s
def execCl5 (s : State) : Host.Outcome State Fault Refusal := codeLengthRun 1 5 s
def execCl6 (s : State) : Host.Outcome State Fault Refusal := codeLengthRun 1 6 s
def execCl7 (s : State) : Host.Outcome State Fault Refusal := codeLengthRun 1 7 s
def execCl8 (s : State) : Host.Outcome State Fault Refusal := codeLengthRun 1 8 s
def execCl9 (s : State) : Host.Outcome State Fault Refusal := codeLengthRun 1 9 s
def execCl10 (s : State) : Host.Outcome State Fault Refusal := codeLengthRun 1 10 s
def execCl11 (s : State) : Host.Outcome State Fault Refusal := codeLengthRun 1 11 s
def execCl12 (s : State) : Host.Outcome State Fault Refusal := codeLengthRun 1 12 s
def execCl13 (s : State) : Host.Outcome State Fault Refusal := codeLengthRun 1 13 s
def execCl14 (s : State) : Host.Outcome State Fault Refusal := codeLengthRun 1 14 s
def execCl15 (s : State) : Host.Outcome State Fault Refusal := codeLengthRun 1 15 s

/-- `CL_16_REPEAT` (R216): 3 to 6 times the previous length; a failure where there is none. -/
def execCl16Repeat (x : BitVec 2) (s : State) : Host.Outcome State Fault Refusal :=
  if s.bd.idx = 0 then .next (raise .repeatWithoutPrevious 0 s)
  else codeLengthRun (x.toNat + 3) (previousLength s) s

/-- `CL_17_ZEROS` (R217): 3 to 10 zeros. -/
def execCl17Zeros (x : BitVec 3) (s : State) : Host.Outcome State Fault Refusal :=
  codeLengthRun (x.toNat + 3) 0 s

/-- `CL_18_ZEROS` (R218): 11 to 138 zeros. -/
def execCl18Zeros (x : BitVec 7) (s : State) : Host.Outcome State Fault Refusal :=
  codeLengthRun (x.toNat + 11) 0 s

end Sys2Proof.Machine
end

