-- ==== Sys2Proof/Machine/StoredBlock.lean ====
section
/-!
DEFINITION. The stored block's lengths and data (43_block_header_stored.md R195 to R198). The data bytes have no row of the
opcode table: they are part of the element STORED_LEN_NLEN, whose note says they follow it (log 15).
-/

namespace Sys2Proof.Machine

/-- The data loop with `k` bytes left (R197): each byte through the bit reader, to the sink, to the history buffer. The
source's end raises, the bytes before it delivered (60_exceptions.md R291, R292). -/
def storedData : (k : Nat) → State → State
  | 0, s => endOfBlock s
  | k + 1, s =>
    match readUint 8 s with
    | .stop r s' => raiseReject r s'
    | .ok v s' =>
      let t := emit (BitVec.ofNat 8 v) s'
      storedData k { t with bd.cnt := t.bd.cnt - 1 }

/-- `STORED_LEN_NLEN` (R195 to R197, R200): both fields are recorded, then checked, then the data is copied and the block
ends. -/
def execStoredLenNlen (len nlen : BitVec 16) (s : State) : Host.Outcome State Fault Refusal :=
  let t := { s with bd.len := len, bd.nlen := nlen }
  if len ^^^ 0xFFFF ≠ nlen then .next (raise .storedLenMismatch 0 t)
  else .next (storedData len.toNat { t with bd.cnt := len })

end Sys2Proof.Machine
end

