-- ==== Sys2Proof/Machine/Step.lean ====
section
/-!
DEFINITION. `step`: one stream element, fetched and executed; and where a word of the opcode table is put so that the next
step runs it.
-/

namespace Sys2Proof.Machine

/-- One step (92_eei_decisions.md D1, log 1). `Done` and `Failed` are absorbing (10_state.md R33): there the block does
nothing. Otherwise the next element is fetched and executed; a read that is rejected raises (00_scope.md R13). -/
def step (s : State) : Host.Outcome State Fault Refusal :=
  if ended s then .next s
  else
    match fetch s with
    | .ok i s' => exec i s'
    | .stop r s' => .next (raiseReject r s')

/-- `s` with the next element's bits at the cursor of the byte source, and nothing buffered. -/
def State.withBits (n : Nat) (bits : List Bool) (s : State) : State :=
  { s with src := { bytes := packBytes n bits, pos := 0 }, br.rem := 0, br.eos := false }

/-- `s` with the word `w` of the opcode table where the next step fetches (log 18): the header bits in the registers HDR
leaves them in, a stored block's lengths or a symbol's code in the byte source of a block that expects it, the fixed codes
in force. A distance symbol finds a run length of 3 waiting. A word the table does not have is stored as a header. -/
def State.withFetchWord (s : State) (nbits w : Nat) : State :=
  match readTableWord nbits w with
  | some (.header v) =>
    { s with
      bd.phase := .readingHeader
      bd.expect := .dispatch
      bd.bfinal := decide (v % 2 = 1)
      bd.btype := BitVec.ofNat 2 (v / 2) }
  | some (.lengths v) =>
    { s.withBits 4 (TableWord.lengths v).stream.2 with bd.phase := .storedBlock, bd.expect := .storedLen }
  | some (.litlen L v) =>
    { setFixedFlags (s.withBits 3 (TableWord.litlen L v).stream.2) with
      bd.phase := .fixedHuffmanBlock, bd.expect := .litlen }
  | some (.dist v) =>
    { setFixedFlags (s.withBits 3 (TableWord.dist v).stream.2) with
      bd.phase := .fixedHuffmanBlock, bd.expect := .dist, bd.runLen := 3 }
  | none =>
    { s.withBits (nbits / 8) (fieldBits nbits w) with bd.phase := .readingHeader, bd.expect := .header }

end Sys2Proof.Machine
end

