-- ==== Sys2Proof/Safety.lean ====
section
/-!
DEFINITION. What claims are stated in: the stream as the bit reader sees it, the invariant `Safe` of every run, and the
Kraft sum of a list of code lengths.
-/

namespace Sys2Proof.Machine

/-! ### The stream ahead -/

/-- The stream bits not yet consumed: the top `br.rem` bits of the buffered byte, then the bytes not yet pulled
(10_state.md R23, 00_scope.md R10). None once the end has been seen (R24). -/
def bitsAhead (s : State) : List Bool :=
  if s.br.eos then []
  else (fieldBits 8 s.br.cur.toNat).drop (8 - s.br.rem.toNat) ++ bytesToBits (s.src.bytes.drop s.src.pos)

/-- `s` after `k` more bits have been consumed, by the accounting of 40_bit_reader.md R136: `src.pos` is `ceil(p / 8)` and
`br.rem` is `(8 - p mod 8) mod 8` for the new bit cursor `p`, and the buffered byte is the last one pulled. -/
def consume (k : Nat) (s : State) : State :=
  if k = 0 then s
  else
    { s with
      src.pos := (bitpos s + k + 7) / 8
      br.rem := BitVec.ofNat 3 ((8 - (bitpos s + k) % 8) % 8)
      br.cur := (s.src.bytes[(bitpos s + k + 7) / 8 - 1]?).getD 0 }

/-- Stream bit `k` (00_scope.md R10): bit `k mod 8` of byte `k div 8`. -/
def streamBit (bytes : List Byte) (k : Nat) : Bool := ((bytes[k / 8]?).getD 0).getLsbD (k % 8)

/-! ### The invariant -/

/-- The bit reader (10_state.md R25, R26, R62): the position is within the source, the buffered byte is the last one pulled,
and the end of the stream has been seen only at a byte boundary with the source exhausted. -/
structure ReaderOk (s : State) : Prop where
  pos_le : s.src.pos ≤ s.src.bytes.length
  cur_last : s.br.rem ≠ 0 → 0 < s.src.pos ∧ s.src.bytes[s.src.pos - 1]? = some s.br.cur
  eos_end : s.br.eos = true → s.br.rem = 0 ∧ s.src.pos = s.src.bytes.length

/-- The history buffer (10_state.md R30 to R32): it holds exactly the last `min(len(OUT), C)` bytes of the output, each at
its distance back from the cursor. -/
structure HistoryOk (s : State) : Prop where
  mem_wf : s.hb.mem.wf
  cur_eq : s.hb.cur.toNat = s.out.length % Config.capacity
  fill_eq : s.hb.fill.toNat = min s.out.length Config.capacity
  window : ∀ d, 1 ≤ d → d ≤ s.hb.fill.toNat →
    some (s.hb.mem.read (s.hb.cur - BitVec.ofNat 15 d).toNat) = s.out[s.out.length - d]?

/-- The status (10_state.md R33, R43; 60_exceptions.md R290, R291): there is a failure record exactly in phase `Failed`; its
class is its cause's and never `Internal` (R283 to R286: unreachable); the end of the stream has been seen exactly where the
failure is `Truncated`; `Done` follows a final block only. -/
structure StatusOk (s : State) : Prop where
  failed_iff : s.bd.phase = .failed ↔ s.bd.err.isSome = true
  cls_eq : ∀ e, s.bd.err = some e → e.cls = e.cause.cls
  not_internal : ∀ e, s.bd.err = some e → e.cls ≠ .internal
  eos_iff : s.br.eos = true ↔ ∃ e, s.bd.err = some e ∧ e.cls = .truncated
  done_final : s.bd.phase = .done → s.bd.bfinal = true

/-- A table that `build` accepted for an alphabet of at most `n` symbols (41_canonical_code.md R155). -/
def AcceptedCode (n : Nat) (code : Code) : Prop :=
  ∃ lens : List (BitVec 4), lens.length ≤ n ∧ build lens = .ok code

/-- The code tables of a context are ones that `build` accepted for its alphabet. -/
def ctxAccepted : Ctx → Prop
  | .clsym code _ => AcceptedCode 19 code
  | .litlen code => AcceptedCode 288 code
  | .dist code => AcceptedCode 32 code
  | _ => True

/-- A run length (45_huffman_body.md R252). -/
def RunLenOk (s : State) : Prop := 3 ≤ s.bd.runLen.toNat ∧ s.bd.runLen.toNat ≤ 258

/-- The codes of a dynamic block's body (44_dynamic_header.md R222 to R225). -/
def BodyCodesOk (s : State) : Prop :=
  s.bd.useFixed = false ∧ AcceptedCode 288 s.bd.llCode ∧ (s.bd.dPresent = true → AcceptedCode 32 s.bd.dCode)

/-- The element kind expected agrees with the phase, and what the element needs is there (43_block_header_stored.md R190,
44_dynamic_header.md R210, 45_huffman_body.md R240). A stored block's lengths stand at a byte boundary (R134). -/
def ControlOk (s : State) : Prop :=
  match s.bd.phase, s.bd.expect with
  | .readingHeader, .header => True
  | .readingHeader, .dispatch => True
  | .storedBlock, .storedLen => s.br.rem = 0
  | .fixedHuffmanBlock, .litlen => s.bd.useFixed = true ∧ s.bd.dPresent = true
  | .fixedHuffmanBlock, .dist => s.bd.useFixed = true ∧ s.bd.dPresent = true ∧ RunLenOk s
  | .dynamicHuffmanBlock, .hlit => True
  | .dynamicHuffmanBlock, .hdist => True
  | .dynamicHuffmanBlock, .hclen => True
  | .dynamicHuffmanBlock, .cllen => s.bd.clPos.toNat < countCl s.bd.hclen
  | .dynamicHuffmanBlock, .clsym => AcceptedCode 19 s.bd.clCode ∧ s.bd.idx.toNat < codeLenCount s
  | .dynamicHuffmanBlock, .litlen => BodyCodesOk s
  | .dynamicHuffmanBlock, .dist => BodyCodesOk s ∧ s.bd.dPresent = true ∧ RunLenOk s
  | .done, _ => True
  | .failed, _ => True
  | _, _ => False

/-- A safe state: what every state of a run meets. -/
structure Safe (s : State) : Prop where
  reader : ReaderOk s
  history : HistoryOk s
  status : StatusOk s
  control : ControlOk s

/-! ### Operands as the rules give them -/

/-- The run of code lengths a code-length symbol stands for, by 30_encoding.md R105: how many, and which. -/
def runOf (s : State) (sym x : Nat) : Nat × BitVec 4 :=
  if sym ≤ 15 then (1, BitVec.ofNat 4 sym)
  else if sym = 16 then (3 + x, (s.bd.codeLen[s.bd.idx.toNat - 1]?).getD 0)
  else if sym = 17 then (3 + x, 0)
  else (11 + x, 0)

/-- The state in which the run has been written. -/
def withRun (s : State) (r : Nat × BitVec 4) : State :=
  { s with bd := { s.bd with
    codeLen := setRun s.bd.codeLen s.bd.idx.toNat r.2 r.1
    idx := BitVec.ofNat 9 (s.bd.idx.toNat + r.1) } }

/-- The distance of a distance symbol 0..29 with extra bits `x`, by the formulas of 45_huffman_body.md R249 and R250. -/
def distanceOf (sym x : Nat) : Nat :=
  if sym ≤ 3 then sym + 1 else ((sym % 2 + 2) <<< (sym / 2 - 1)) + 1 + x

/-! ### Kraft sums -/

/-- The sum over the coded symbols of `2^(15 - length)` (41_canonical_code.md R155). -/
def kraftSum : List (BitVec 4) → Nat
  | [] => 0
  | l :: ls => (if l = 0 then 0 else 2 ^ (15 - l.toNat)) + kraftSum ls

end Sys2Proof.Machine
end

