-- ==== Sys2Proof/Certificates/Slice0/Obligations.lean ====
section
/-!
DEFINITION. The statements for the provers, each `def Obligations.<Name> : Prop`. Throughout, that one step is one stream
element, and the fields `expect`, `clPos` and `runLen`, are the model's own (DESIGN CHOICE, logs 1, 2 and 5), not the spec's.
-/

open Sys2Proof Sys2Proof.Machine

/-! ### Reset, failures, steps -/

/-- 70_reset_and_hazards.md R311, R310: reset, in any state, leaves the values a claim may rely on; the state after reset
itself has them. -/
def Obligations.ResetLeavesTheReliableValues : Prop :=
  (∀ s : State, (hostReset s).bd.phase = .readingHeader ∧ (hostReset s).br.rem = 0 ∧ (hostReset s).br.eos = false ∧
    (hostReset s).hb.fill = 0 ∧ (hostReset s).bd.err = none ∧ (hostReset s).out = [] ∧ bitpos (hostReset s) = 0) ∧
  hostReset State.reset = State.reset

/-- The state after reset is safe, whatever bytes the source holds. -/
def Obligations.EveryStartIsSafe : Prop := Safe State.reset ∧ ∀ bytes : List Byte, Safe (startOn bytes)

/-- No element stops, on any operands, in any state, and no step does: each answers a next state. Of this the spec gives the
parts a run comes to: a raise records and ends the run (60_exceptions.md R290), and the bytes a copy reads exist (10_state.md
R29). That a step after `Failed` or `Done` answers a next state, not a stop, is the model's choice (DEDUCED, log 10: R33 and
R294 say that the block does nothing there). That elements go on in states no run reaches, the guards that raise
Internal(VALUE_RANGE) as a next state among them, is the model's choice too (DESIGN CHOICE, log 11: R287 leaves open whether
a model has such cases at all). So is that source and sink always answer (logs 13, 14). -/
def Obligations.NothingStops : Prop :=
  (∀ (i : Instr) (s : State), ∃ t, exec i s = .next t) ∧ ∀ s : State, ∃ t, step s = .next t

/-- The headline invariant: from a safe state a step never stops without a next state (no fault, no refusal), and the next
state is safe: the reader keeps its place (R25, R26), the history buffer holds the last bytes of the output (R32), no
`Internal` failure is ever raised (R283 to R286), and the codes in force are ones `build` accepted (R155). That a step after
the end of a run answers a next state, not a stop, is the model's choice (log 10), and so is that source and sink always
answer (logs 13, 14). -/
def Obligations.EveryStepKeepsSafe : Prop :=
  ∀ s : State, Safe s → ∃ t, step s = .next t ∧ Safe t

/-- 60_exceptions.md R290: a `raise` records class, cause and info and sets the phase; everything else stays, nothing is
saved for a handler; the run has ended, and the status tells the host. -/
def Obligations.RaiseRecordsAndStops : Prop :=
  ∀ (c : Cause) (info : BitVec 8) (s : State),
    raise c info s = { s with bd := { s.bd with err := some ⟨c.cls, c, info⟩, phase := .failed } } ∧
    ended (raise c info s) = true ∧ readStatus (raise c info s) = ⟨.failed, c.cls.code, c.code, info⟩

/-- 60_exceptions.md R271 to R286: the class and the number of every cause, in the rules' order. -/
def Obligations.CausesHaveTheirNumbers : Prop :=
  ∀ (info : BitVec 8) (s : State),
    [Cause.reservedBlockType, .storedLenMismatch, .codeOverfull, .codeUnderfull, .repeatWithoutPrevious, .runExceedsCount,
      .reservedLengthSymbol, .noDistanceCode, .reservedDistanceSymbol, .invalidLengthOrDistance, .unexpectedEnd,
      .argOutOfRange, .bitCountRange, .decodeOverrun, .valueRange].map (fun c => readStatus (raise c info s)) =
    [⟨.failed, 1, 0x01, info⟩, ⟨.failed, 1, 0x02, info⟩, ⟨.failed, 1, 0x03, info⟩, ⟨.failed, 1, 0x04, info⟩,
      ⟨.failed, 1, 0x05, info⟩, ⟨.failed, 1, 0x06, info⟩, ⟨.failed, 1, 0x07, info⟩, ⟨.failed, 1, 0x08, info⟩,
      ⟨.failed, 1, 0x09, info⟩, ⟨.failed, 1, 0x0A, info⟩, ⟨.failed, 2, 0x20, info⟩, ⟨.failed, 3, 0x40, info⟩,
      ⟨.failed, 3, 0x41, info⟩, ⟨.failed, 3, 0x42, info⟩, ⟨.failed, 3, 0x43, info⟩]

/-- 60_exceptions.md R294, 10_state.md R33: after a failure, and after `Done`, the block does nothing. That such a step
answers the same state, not a stop, is the model's choice (log 10). -/
def Obligations.EndedRunsDoNothing : Prop :=
  ∀ s : State, s.bd.phase = .failed ∨ s.bd.phase = .done → step s = .next s

/-- When the bits at the cursor decode to an instruction, the step is its meaning at the state in which exactly those bits
have been consumed. -/
def Obligations.StepRunsTheDecodedInstruction : Prop :=
  ∀ (s : State) (i : Instr) (rest : List Bool), ReaderOk s → s.br.eos = false → ended s = false →
    decode listBits (ctxOf s) (bitsAhead s) = .ok i rest →
    step s = exec i (consume ((bitsAhead s).length - rest.length) s)

/-- Where no instruction can be decoded the step raises; what each rejection leaves is written out (60_exceptions.md R282,
R283, R285, R286; 41_canonical_code.md R157: never `Malformed`). For missing bits the source is exhausted, its end is seen,
and a field read whole before them is in its register (log 22). No fetch asks for more than 15 bits, so the record of
`ARG_OUT_OF_RANGE` is stated of the raise itself, for every `n` that its 8-bit info holds (log 23 is not relied on). -/
def Obligations.StepRaisesWhatTheDecoderRejects : Prop :=
  ∀ (s : State) (r : Reject) (rest : List Bool), ReaderOk s → s.br.eos = false → ended s = false →
    decode listBits (ctxOf s) (bitsAhead s) = .stop r rest →
    (∀ got, r = .unexpectedEnd got → step s = .next
      { consume (bitsAhead s).length s with
        br := { (consume (bitsAhead s).length s).br with eos := true }
        bd := { s.bd with
          bfinal := (match got with
            | .bfinal f => f
            | _ => s.bd.bfinal)
          len := (match got with
            | .len l => l
            | _ => s.bd.len)
          err := some ⟨.truncated, .unexpectedEnd, 0⟩, phase := .failed } }) ∧
    (r = .decodeOverrun → step s = .next
      { consume ((bitsAhead s).length - rest.length) s with
        bd := { s.bd with err := some ⟨.internal, .decodeOverrun, 0⟩, phase := .failed } }) ∧
    (r = .valueRange → step s = .next
      { consume ((bitsAhead s).length - rest.length) s with
        bd := { s.bd with err := some ⟨.internal, .valueRange, 0⟩, phase := .failed } }) ∧
    (∀ n, r ≠ .argOutOfRange n) ∧
    (∀ (n : Nat) (u : State), n < 256 → raiseReject (.argOutOfRange n) u =
      { u with bd := { u.bd with err := some ⟨.internal, .argOutOfRange, BitVec.ofNat 8 n⟩, phase := .failed } })

/-! ### Encodings -/

/-- Decoding the encoding of a well-formed element gives the element back, with every operand, and leaves the bits after it;
in every context, for every code that `build` accepts. -/
def Obligations.EncodedElementsDecodeBack : Prop :=
  ∀ (c : Ctx) (i : Instr) (rest : List Bool), ctxAccepted c → i.wf c = true →
    decode listBits c (encode c i ++ rest) = .ok i rest

/-- The other direction: what decodes is well formed, and the bits consumed are its encoding. -/
def Obligations.DecodedBitsAreTheEncoding : Prop :=
  ∀ (c : Ctx) (i : Instr) (bits rest : List Bool), ctxAccepted c → decode listBits c bits = .ok i rest →
    i.wf c = true ∧ bits = encode c i ++ rest

/-- A few words of the opcode table, numbered as the table numbers them. Which row a number is read as, where rows of two
formats share it, is the model's choice (DESIGN CHOICE, log 17), not the spec's: 2 in 8 bits is the `match` of `BTYPE1_FIXED`
and of `LEN_258`, 8 that of `LEN_264` and of `DIST_8`, and each is read as the first of the two. -/
def Obligations.TableWordsDecode : Prop :=
  decodeTableWord 8 0x30 = some .lit00 ∧ decodeTableWord 16 0x1FF = some .litFF ∧
  decodeTableWord 8 0x71 = some .lit41 ∧ decodeTableWord 8 8 = some .len264 ∧
  decodeTableWord 8 0xC5 = some .len285 ∧ decodeTableWord 5 4 = some (.dist4 0) ∧
  decodeTableWord 8 2 = some (.btype1Fixed false) ∧ decodeTableWord 32 0xFFFA0005 = some (.storedLenNlen 5 0xFFFA)

/-- 30_encoding.md R101: `FIXED_LL_CODE` is what `build` makes of its lengths, and a literal/length element of a fixed block
is its symbol's code of the table, most significant bit first, then its extra bits. -/
def Obligations.FixedLiteralLengthCodes : Prop :=
  build (List.replicate 144 8 ++ List.replicate 112 9 ++ List.replicate 24 7 ++ List.replicate 8 8) = .ok fixedLLCode ∧
  ∀ (i : Instr) (sym n x : Nat) (rest : List Bool), formOf i = .symbol .litlen sym n x →
    decode listBits (.litlen fixedLLCode)
      ((if sym < 144 then codeValueBits 8 (0x30 + sym)
        else if sym < 256 then codeValueBits 9 (0x190 + (sym - 144))
        else if sym < 280 then codeValueBits 7 (sym - 256)
        else codeValueBits 8 (0xC0 + (sym - 280))) ++ (fieldBits n x ++ rest)) = .ok i rest

/-- 30_encoding.md R102: `FIXED_D_CODE` is what `build` makes of its lengths, and a distance element of a fixed block is its
symbol in 5 bits, most significant bit first, then its extra bits. -/
def Obligations.FixedDistanceCodes : Prop :=
  build (List.replicate 32 5) = .ok fixedDCode ∧
  ∀ (i : Instr) (sym n x : Nat) (rest : List Bool), formOf i = .symbol .dist sym n x →
    decode listBits (.dist fixedDCode) (codeValueBits 5 sym ++ (fieldBits n x ++ rest)) = .ok i rest

/-! ### The bit reader -/

/-- 40_bit_reader.md R131: after the end has been seen, nothing; at the end, the end is seen; else the bit of the stream at
the cursor, with the byte pulled when none is buffered. -/
def Obligations.ReadBitDeliversTheStream : Prop :=
  ∀ s : State, ReaderOk s →
    (s.br.eos = true → readBitOrEnd s = (none, s)) ∧
    (s.br.eos = false → 8 * s.src.bytes.length ≤ bitpos s → readBitOrEnd s = (none, { s with br.eos := true })) ∧
    (s.br.eos = false → bitpos s < 8 * s.src.bytes.length →
      readBitOrEnd s = (some (streamBit s.src.bytes (bitpos s)), consume 1 s) ∧
      bitpos (consume 1 s) = bitpos s + 1 ∧
      (consume 1 s).src.pos = (if s.br.rem = 0 then s.src.pos + 1 else s.src.pos) ∧
      (consume 1 s).br.rem = s.br.rem - 1)

/-- 40_bit_reader.md R132: the range check first; then `n` bits, the first one bit 0 of the result; a missing bit raises
with the source exhausted and its end seen. After the end has been seen there are no bits ahead. -/
def Obligations.ReadUintIsLeastSignificantFirst : Prop :=
  ∀ (n : Nat) (s : State), ReaderOk s →
    (15 < n → readUint n s = .stop (.argOutOfRange n) s) ∧
    (n ≤ 15 → n ≤ (bitsAhead s).length → readUint n s = .ok (bitsValue ((bitsAhead s).take n)) (consume n s)) ∧
    (n ≤ 15 → (bitsAhead s).length < n →
      readUint n s = .stop (.unexpectedEnd .nothing) { consume (bitsAhead s).length s with br.eos := true })

/-- 40_bit_reader.md R136: after `k` bits the reader's registers are functions of the cursor alone, and the cursor is `k`
further. -/
def Obligations.ConsumedBitsAreAccountedFor : Prop :=
  ∀ (s : State) (k : Nat), ReaderOk s → s.br.eos = false → k ≤ (bitsAhead s).length →
    bitpos (consume k s) = bitpos s + k ∧
    (consume k s).src.pos = (bitpos (consume k s) + 7) / 8 ∧
    (consume k s).br.rem.toNat = (8 - bitpos (consume k s) % 8) % 8 ∧
    bitPosition (consume k s) = bitpos (consume k s) % 8 ∧
    bitsAhead (consume k s) = (bitsAhead s).drop k

/-! ### Canonical codes -/

/-- 41_canonical_code.md R152, R153, R155: `build` accepts exactly the full code length sets, and finds the others over-full
or under-full according to their Kraft sum. -/
def Obligations.BuildAcceptsExactlyTheFullCodes : Prop :=
  ∀ lens : List (BitVec 4),
    ((∃ code, build lens = .ok code) ↔ kraftSum lens = 2 ^ 15) ∧
    (build lens = .error .overfull ↔ 2 ^ 15 < kraftSum lens) ∧
    (build lens = .error .underfull ↔ kraftSum lens < 2 ^ 15)

/-- 41_canonical_code.md R150: an accepted table has one entry for each symbol with a nonzero length and no other; the key
of a symbol of length `L` has its leading 1 at bit `L`. -/
def Obligations.BuiltTablesHoldEachCodedSymbolOnce : Prop :=
  ∀ (lens : List (BitVec 4)) (code : Code), lens.length ≤ 320 → build lens = .ok code →
    (∀ e ∈ code, ∃ l, lens[e.sym.toNat]? = some l ∧ l ≠ 0 ∧
      2 ^ l.toNat ≤ e.key.toNat ∧ e.key.toNat < 2 ^ (l.toNat + 1)) ∧
    (∀ (s : Nat) (l : BitVec 4), lens[s]? = some l → l ≠ 0 → ∃ e ∈ code, e.sym.toNat = s) ∧
    (code.map (fun e => e.sym)).Nodup ∧ (code.map (fun e => e.key)).Nodup

/-- 41_canonical_code.md R151 corner cases (c) and (d): codes are assigned by rising length, and within a length by rising
symbol: padded to 15 bits, a symbol's code value is the sum of the shares `2^(15 - length)` of the symbols before it. -/
def Obligations.CodeValuesAreCanonical : Prop :=
  ∀ (lens : List (BitVec 4)) (code : Code) (e : Entry) (l : BitVec 4), lens.length ≤ 320 → build lens = .ok code →
    e ∈ code → lens[e.sym.toNat]? = some l →
    (e.key.toNat - 2 ^ l.toNat) * 2 ^ (15 - l.toNat) =
      kraftSum (lens.filter fun k => decide (k < l)) + kraftSum ((lens.take e.sym.toNat).filter fun k => k == l)

/-- 41_canonical_code.md R155: an accepted code is prefix-free: no key, cut short, is another key. -/
def Obligations.BuiltCodesArePrefixFree : Prop :=
  ∀ (lens : List (BitVec 4)) (code : Code) (d e : Entry) (k : Nat), build lens = .ok code → d ∈ code → e ∈ code →
    d.key.toNat = e.key.toNat / 2 ^ k → k = 0

/-- 41_canonical_code.md R157: on an accepted table the decoding of a symbol ends within 15 bits: it stops only for missing
bits, never for an overrun, and with 15 bits at hand it finds a symbol of the table. -/
def Obligations.SymbolDecodingEndsWithinFifteenBits : Prop :=
  ∀ (lens : List (BitVec 4)) (code : Code) (bits : List Bool), build lens = .ok code →
    (∀ r rest, decodeSymbolFrom listBits code bits = .stop r rest →
      r = .unexpectedEnd .nothing ∧ rest = [] ∧ bits.length < 15) ∧
    (15 ≤ bits.length → ∃ sym rest, decodeSymbolFrom listBits code bits = .ok sym rest ∧
      hasSymbol code sym = true ∧ bits.length ≤ rest.length + 15)

/-! ### The history buffer -/

/-- 42_history_buffer.md R171, 10_state.md R32: a byte sent and appended keeps the window on the output. -/
def Obligations.EmittedBytesKeepTheWindow : Prop :=
  ∀ (b : Byte) (s : State), HistoryOk s →
    HistoryOk (emit b s) ∧ (emit b s).out = s.out ++ [b] ∧ (emit b s).hb.mem.read s.hb.cur.toNat = b ∧
    (∀ a, a ≠ s.hb.cur.toNat → (emit b s).hb.mem.read a = s.hb.mem.read a)

/-- 42_history_buffer.md R174, R176: the output of `copy(d, n)` is the `d` bytes before it, repeated cyclically and cut to
`n` bytes; the cursor and the fill advance; nothing outside the history buffer and the output changes. -/
def Obligations.CopyRepeatsThePrecedingBytes : Prop :=
  ∀ (d n : Nat) (s : State), HistoryOk s → 1 ≤ d → d ≤ s.hb.fill.toNat →
    ∃ t, copy d n s = t ∧ HistoryOk t ∧ t.src = s.src ∧ t.br = s.br ∧ t.bd = s.bd ∧
      t.hb.cur.toNat = (s.hb.cur.toNat + n) % 32768 ∧ t.hb.fill.toNat = min (s.hb.fill.toNat + n) 32768 ∧
      t.out.length = s.out.length + n ∧
      (∀ k, k < s.out.length → t.out[k]? = s.out[k]?) ∧
      (∀ k, k < n → t.out[s.out.length + k]? = t.out[s.out.length + k - d]?) ∧
      (∀ a, (∀ k, k < n → a ≠ (s.hb.cur.toNat + k) % 32768) → t.hb.mem.read a = s.hb.mem.read a)

/-- 42_history_buffer.md R173: the check is made once, before any effect; a distance of 0, or beyond the bytes held, fails
with no output. -/
def Obligations.CopyChecksTheDistanceFirst : Prop :=
  ∀ (d n : Nat) (s : State), d = 0 ∨ s.hb.fill.toNat < d →
    copy d n s = { s with bd := { s.bd with
      err := some ⟨.malformed, .invalidLengthOrDistance, 0⟩, phase := .failed } }

/-- 42_history_buffer.md R172, R175, 10_state.md R29: every byte of the history buffer exists, so a copy that passed its check
goes through in every state, in those no run reaches too: each further byte is the one the buffer holds at the read index,
which wraps at the capacity, after the bytes before it have been sent and appended. No value that a byte holds at reset is
relied on (log 6). -/
def Obligations.CopyReadsOneByteAfterAnother : Prop :=
  ∀ (d k : Nat) (s : State), 1 ≤ d → d ≤ s.hb.fill.toNat →
    copy d 0 s = s ∧
    copy d (k + 1) s =
      emit ((copy d k s).hb.mem.read ((s.hb.cur.toNat + 65536 - d + k) % 32768)) (copy d k s)

/-! ### The block header -/

/-- The row `HDR` records the flag and the type, and the dispatch follows; nothing else changes (R191). -/
def Obligations.HeaderIsRecorded : Prop :=
  ∀ (f : Bool) (t : BitVec 2) (s : State),
    exec (.hdr f t) s = .next { s with bd := { s.bd with bfinal := f, btype := t, expect := .dispatch } }

/-- 43_block_header_stored.md R191 as a step: 1 bit then 2 bits, BFINAL recorded before BTYPE is read; the end of the source
within them raises. -/
def Obligations.HeaderStepReadsThreeBits : Prop :=
  ∀ s : State, ReaderOk s → s.br.eos = false → ended s = false → s.bd.expect = .header →
    (∀ b₀ b₁ b₂ rest, bitsAhead s = b₀ :: b₁ :: b₂ :: rest →
      step s = .next { consume 3 s with bd := { s.bd with
        bfinal := b₀, btype := BitVec.ofNat 2 (b₁.toNat + 2 * b₂.toNat), expect := .dispatch } }) ∧
    ((bitsAhead s).length < 3 → ∃ t, step s = .next t ∧ t.bd.phase = .failed ∧
      t.bd.err = some ⟨.truncated, .unexpectedEnd, 0⟩ ∧ t.src.pos = s.src.bytes.length ∧ t.br.eos = true ∧
      t.bd.bfinal = ((bitsAhead s).head?).getD s.bd.bfinal ∧ t.bd.btype = s.bd.btype ∧ t.out = s.out ∧ t.hb = s.hb)

/-- 43_block_header_stored.md R194: the bits up to the byte boundary are consumed, their values ignored; it cannot fail. The
row `BTYPE0_STORED`. -/
def Obligations.StoredBlockAligns : Prop :=
  ∀ (f : Bool) (s : State), ReaderOk s → s.br.eos = false →
    exec (.btype0Stored f) s = .next { consume ((8 - bitPosition s) % 8) s with bd := { s.bd with
      phase := .storedBlock, expect := .storedLen } } ∧
    bitPosition (consume ((8 - bitPosition s) % 8) s) = 0

/-- 43_block_header_stored.md R199: a fixed block uses the two constant codes, and has a distance code; no bit is consumed.
The row `BTYPE1_FIXED`. -/
def Obligations.FixedBlockSetUp : Prop :=
  ∀ (f : Bool) (s : State),
    exec (.btype1Fixed f) s = .next { s with bd := { s.bd with
      useFixed := true, dPresent := true, phase := .fixedHuffmanBlock, expect := .litlen } } ∧
    ∀ t, exec (.btype1Fixed f) s = .next t → litlenCode t = fixedLLCode ∧ distCode t = fixedDCode

/-- A dynamic block starts with its counts (R190, 44_dynamic_header.md R210). The row `BTYPE2_DYNAMIC`. -/
def Obligations.DynamicBlockStarts : Prop :=
  ∀ (f : Bool) (s : State), exec (.btype2Dynamic f) s =
    .next { s with bd := { s.bd with phase := .dynamicHuffmanBlock, expect := .hlit } }

/-- 43_block_header_stored.md R193: block type 3 fails, whatever surrounds it, no further bit consumed. The row
`BTYPE3_RESERVED`. -/
def Obligations.ReservedBlockTypeFails : Prop :=
  ∀ (f : Bool) (s : State), exec (.btype3Reserved f) s =
    .next { s with bd := { s.bd with err := some ⟨.malformed, .reservedBlockType, 0⟩, phase := .failed } }

/-- The dispatch is on BTYPE alone (43_block_header_stored.md R192). -/
def Obligations.DispatchIsOnTheTypeAlone : Prop :=
  ∀ (s : State), s.bd.expect = .dispatch → ended s = false →
    step s = match s.bd.btype.toNat with
      | 0 => exec (.btype0Stored s.bd.bfinal) s
      | 1 => exec (.btype1Fixed s.bd.bfinal) s
      | 2 => exec (.btype2Dynamic s.bd.bfinal) s
      | _ => exec (.btype3Reserved s.bd.bfinal) s

/-! ### Stored blocks -/

/-- The row `STORED_LEN_NLEN`. 43_block_header_stored.md R197: the data bytes go to the sink and to the history buffer one
by one, then the block ends; where the source ends first, the bytes before its end have been delivered and the run is
`Truncated`. -/
def Obligations.StoredDataIsCopied : Prop :=
  ∀ (len nlen : BitVec 16) (s : State), ReaderOk s → s.br.eos = false → s.br.rem = 0 → len ^^^ 0xFFFF = nlen →
    (len.toNat ≤ (s.src.bytes.drop s.src.pos).length →
      exec (.storedLenNlen len nlen) s = .next (endOfBlock
        { ((s.src.bytes.drop s.src.pos).take len.toNat).foldl (fun u b => emit b u) (consume (8 * len.toNat) s) with
          bd := { s.bd with len := len, nlen := nlen, cnt := 0 } })) ∧
    ((s.src.bytes.drop s.src.pos).length < len.toNat →
      exec (.storedLenNlen len nlen) s = .next (raise .unexpectedEnd 0
        { (s.src.bytes.drop s.src.pos).foldl (fun u b => emit b u)
            { consume (8 * (s.src.bytes.drop s.src.pos).length) s with br.eos := true } with
          bd := { s.bd with
            len := len, nlen := nlen
            cnt := len - BitVec.ofNat 16 (s.src.bytes.drop s.src.pos).length } }))

/-- 43_block_header_stored.md R196: lengths that do not match fail before any data byte. -/
def Obligations.StoredLengthMismatchFails : Prop :=
  ∀ (len nlen : BitVec 16) (s : State), len ^^^ 0xFFFF ≠ nlen →
    exec (.storedLenNlen len nlen) s = .next { s with bd := { s.bd with
      len := len, nlen := nlen, err := some ⟨.malformed, .storedLenMismatch, 0⟩, phase := .failed } }

/-! ### The dynamic header -/

/-- The rows `HLIT`, `HDIST`, `HCLEN`: the three counts are recorded; after the last the array of code-length-code lengths
is cleared (44_dynamic_header.md R211, R212). -/
def Obligations.CountsAreRecorded : Prop :=
  ∀ (h d : BitVec 5) (c : BitVec 4) (s : State),
    exec (.hlit h) s = .next { s with bd := { s.bd with hlit := h, expect := .hdist } } ∧
    exec (.hdist d) s = .next { s with bd := { s.bd with hdist := d, expect := .hclen } } ∧
    exec (.hclen c) s = .next { s with bd := { s.bd with
      hclen := c, clLen := Vector.replicate 19 0, clPos := 0, expect := .cllen } }

/-- The row `CLLEN`: a code-length-code length goes to the next symbol in scan order (44_dynamic_header.md R212). -/
def Obligations.CodeLengthCodeLengthsFollowTheScanOrder : Prop :=
  ∀ (v : BitVec 3) (s : State), s.bd.clPos.toNat + 1 < countCl s.bd.hclen →
    exec (.cllen v) s = .next { s with bd := { s.bd with
      clLen := s.bd.clLen.setIfInBounds
        ([16, 17, 18, 0, 8, 7, 9, 6, 10, 5, 11, 4, 12, 3, 13, 2, 14, 1, 15].getD s.bd.clPos.toNat 0) v
      clPos := s.bd.clPos + 1 } }

/-- The row `CLLEN` at its last time, 44_dynamic_header.md R213: after the last code-length-code length the code-length code
is built over all 19 entries, or fails with info 0. -/
def Obligations.LastCodeLengthCodeLengthBuilds : Prop :=
  ∀ (v : BitVec 3) (s : State), s.bd.clPos.toNat + 1 = countCl s.bd.hclen →
    ∃ u : State, u = { s with bd := { s.bd with
        clLen := s.bd.clLen.setIfInBounds
          ([16, 17, 18, 0, 8, 7, 9, 6, 10, 5, 11, 4, 12, 3, 13, 2, 14, 1, 15].getD s.bd.clPos.toNat 0) v
        clPos := s.bd.clPos + 1 } } ∧
      (∀ code, build (u.bd.clLen.toList.map (BitVec.setWidth 4)) = .ok code →
        exec (.cllen v) s = .next { u with bd := { u.bd with clCode := code, idx := 0, expect := .clsym } }) ∧
      (build (u.bd.clLen.toList.map (BitVec.setWidth 4)) = .error .overfull →
        exec (.cllen v) s = .next { u with bd := { u.bd with
          err := some ⟨.malformed, .codeOverfull, 0⟩, phase := .failed } }) ∧
      (build (u.bd.clLen.toList.map (BitVec.setWidth 4)) = .error .underfull →
        exec (.cllen v) s = .next { u with bd := { u.bd with
          err := some ⟨.malformed, .codeUnderfull, 0⟩, phase := .failed } })

/-- The rows `CL_0` to `CL_15`, `CL_16_REPEAT`, `CL_17_ZEROS` and `CL_18_ZEROS` complete, 44_dynamic_header.md R215 to R218:
a code-length symbol writes its run at the index and advances it, where the count is not reached by it. -/
def Obligations.CodeLengthSymbolsWriteTheirRun : Prop :=
  ∀ (i : Instr) (s : State) (sym n x : Nat), formOf i = .symbol .clsym sym n x → (sym = 16 → s.bd.idx ≠ 0) →
    s.bd.idx.toNat + (runOf s sym x).1 < codeLenCount s →
    exec i s = .next (withRun s (runOf s sym x)) ∧
    (withRun s (runOf s sym x)).bd.codeLen.toList =
      s.bd.codeLen.toList.take s.bd.idx.toNat ++
        (List.replicate (runOf s sym x).1 (runOf s sym x).2 ++
          s.bd.codeLen.toList.drop (s.bd.idx.toNat + (runOf s sym x).1))

/-- 44_dynamic_header.md R219: a run that passes the count fails before any entry of it is written. -/
def Obligations.RunsPastTheCountFail : Prop :=
  ∀ (i : Instr) (s : State) (sym n x : Nat), formOf i = .symbol .clsym sym n x → (sym = 16 → s.bd.idx ≠ 0) →
    s.bd.idx.toNat < codeLenCount s → codeLenCount s < s.bd.idx.toNat + (runOf s sym x).1 →
    exec i s = .next { s with bd := { s.bd with err := some ⟨.malformed, .runExceedsCount, 0⟩, phase := .failed } }

/-- 60_exceptions.md R276, 44_dynamic_header.md R216: a symbol 16 that is the first of its header fails, and its extra bits
are not read. -/
def Obligations.RepeatWithoutPreviousFails : Prop :=
  (∀ (x : BitVec 2) (s : State), s.bd.idx = 0 →
    exec (.cl16Repeat x) s =
      .next { s with bd := { s.bd with err := some ⟨.malformed, .repeatWithoutPrevious, 0⟩, phase := .failed } }) ∧
  ∀ (code : Code) (bits rest : List Bool), decodeSymbolFrom listBits code bits = .ok 16 rest →
    decode listBits (.clsym code true) bits = .ok (.cl16Repeat 0) rest

/-- 44_dynamic_header.md R221 to R225: the code length that fills the count builds the literal/length code first, then
treats the distance lengths: none for the one length 0, else padded where R224 says and built. A failure of either is
written out, over-full or under-full with its info, 1 or 2; the first leaves the distance lengths unlooked at, the second the
literal/length code in its register. -/
def Obligations.LastCodeLengthBuildsTheCodes : Prop :=
  ∀ (i : Instr) (s : State) (sym n x : Nat), formOf i = .symbol .clsym sym n x → (sym = 16 → s.bd.idx ≠ 0) →
    s.bd.idx.toNat + (runOf s sym x).1 = codeLenCount s →
    ∃ (u : State) (llLens dLens : List (BitVec 4)),
      u = withRun s (runOf s sym x) ∧
      llLens = u.bd.codeLen.toList.take (s.bd.hlit.toNat + 257) ∧
      dLens = (u.bd.codeLen.toList.drop (s.bd.hlit.toNat + 257)).take (s.bd.hdist.toNat + 1) ∧
      (build llLens = .error .overfull → exec i s = .next { u with bd := { u.bd with
        err := some ⟨.malformed, .codeOverfull, 1⟩, phase := .failed } }) ∧
      (build llLens = .error .underfull → exec i s = .next { u with bd := { u.bd with
        err := some ⟨.malformed, .codeUnderfull, 1⟩, phase := .failed } }) ∧
      (∀ c, build llLens = .ok c → dLens = [0] →
        exec i s = .next { u with bd := { u.bd with
          llCode := c, dPresent := false, useFixed := false, expect := .litlen } }) ∧
      (∀ c, build llLens = .ok c → dLens ≠ [0] → build (padDistLens dLens) = .error .overfull →
        exec i s = .next { u with bd := { u.bd with
          llCode := c, err := some ⟨.malformed, .codeOverfull, 2⟩, phase := .failed } }) ∧
      (∀ c, build llLens = .ok c → dLens ≠ [0] → build (padDistLens dLens) = .error .underfull →
        exec i s = .next { u with bd := { u.bd with
          llCode := c, err := some ⟨.malformed, .codeUnderfull, 2⟩, phase := .failed } }) ∧
      (∀ c d, build llLens = .ok c → dLens ≠ [0] → build (padDistLens dLens) = .ok d →
        exec i s = .next { u with bd := { u.bd with
          llCode := c, dCode := d, dPresent := true, useFixed := false, expect := .litlen } })

/-- 44_dynamic_header.md R224: a single distance code of length 1 is padded to a complete code of two, the real symbol `0`
and symbol 31 `1`; in slot 31 itself it is under-full; an array without exactly one length 1 and no longer one is left as it
is (R225). -/
def Obligations.SingleDistanceCodesArePadded : Prop :=
  ∀ d : List (BitVec 4), d.length ≤ 32 →
    (∀ k, k < d.length → k ≠ 31 → (∀ j, j < d.length → d[j]? = some (if j = k then 1 else 0)) →
      build (padDistLens d) = .ok [⟨2, BitVec.ofNat 9 k⟩, ⟨3, 31⟩]) ∧
    (d.length = 32 → (∀ j, j < 32 → d[j]? = some (if j = 31 then 1 else 0)) →
      build (padDistLens d) = .error .underfull) ∧
    ((d.filter (fun l => l ≠ 0)) ≠ [1] → padDistLens d = d)

/-! ### The block body -/

/-- The rows `LIT_00` to `LIT_FF` complete, in every state, 45_huffman_body.md R241: a literal's byte, the symbol number,
goes to the sink and to the history buffer. -/
def Obligations.LiteralsAreEmitted : Prop :=
  ∀ (i : Instr) (s : State) (sym n x : Nat), formOf i = .symbol .litlen sym n x → sym < 256 →
    exec i s = .next { s with
      out := s.out ++ [BitVec.ofNat 8 sym]
      hb := {
        mem := s.hb.mem.write s.hb.cur.toNat (BitVec.ofNat 8 sym)
        cur := BitVec.ofNat 15 ((s.hb.cur.toNat + 1) % 32768)
        fill := BitVec.ofNat 16 (min (s.hb.fill.toNat + 1) 32768) } }

/-- The row `EOB`, 45_huffman_body.md R242, 43_block_header_stored.md R200: the end of a block outputs nothing; it goes on
to the next header or, in the final block, to `Done`. -/
def Obligations.EndOfBlockDecides : Prop :=
  ∀ s : State,
    (s.bd.bfinal = true → exec .eob s = .next { s with bd := { s.bd with phase := .done } }) ∧
    (s.bd.bfinal = false → exec .eob s = .next { s with bd := { s.bd with phase := .readingHeader, expect := .header } })

/-- The rows `LEN_257` to `LEN_285` complete, 45_huffman_body.md R243 to R245: the run length of a length symbol, by the
formulas of the rules, waits for the distance symbol. -/
def Obligations.LengthSymbolsGiveTheirRunLength : Prop :=
  ∀ (i : Instr) (s : State) (sym n x : Nat), formOf i = .symbol .litlen sym n x → s.bd.dPresent = true →
    (257 ≤ sym → sym ≤ 264 →
      n = 0 ∧ exec i s = .next { s with bd := { s.bd with runLen := BitVec.ofNat 9 (sym - 254), expect := .dist } }) ∧
    (265 ≤ sym → sym ≤ 284 →
      n = (sym - 261) / 4 ∧ exec i s = .next { s with bd := { s.bd with
        runLen := BitVec.ofNat 9 ((((sym - 265) % 4 + 4) <<< ((sym - 261) / 4)) + 3 + x), expect := .dist } }) ∧
    (sym = 285 → n = 0 ∧ exec i s = .next { s with bd := { s.bd with runLen := 258, expect := .dist } })

/-- The rows `LEN_286_RESERVED` and `LEN_287_RESERVED`, 45_huffman_body.md R246: the symbols 286 and 287 have no extra bits
and fail, with or without a distance code. -/
def Obligations.ReservedLengthSymbolsFail : Prop :=
  ∀ (i : Instr) (s : State) (sym n x : Nat), formOf i = .symbol .litlen sym n x → 286 ≤ sym →
    n = 0 ∧ exec i s =
      .next { s with bd := { s.bd with err := some ⟨.malformed, .reservedLengthSymbol, 0⟩, phase := .failed } }

/-- 45_huffman_body.md R247: a length symbol in a block without a distance code fails. -/
def Obligations.LengthsWithoutADistanceCodeFail : Prop :=
  ∀ (i : Instr) (s : State) (sym n x : Nat), formOf i = .symbol .litlen sym n x → 257 ≤ sym → sym ≤ 285 →
    s.bd.dPresent = false →
    exec i s = .next { s with bd := { s.bd with err := some ⟨.malformed, .noDistanceCode, 0⟩, phase := .failed } }

/-- The rows `DIST_0` to `DIST_29` complete, 45_huffman_body.md R249, R250, R253: a distance symbol whose distance is held
completes: the waiting run length of bytes is copied from that distance, and the body goes on. -/
def Obligations.DistanceSymbolsCopy : Prop :=
  ∀ (i : Instr) (s : State) (sym n x : Nat), formOf i = .symbol .dist sym n x → sym ≤ 29 → HistoryOk s → RunLenOk s →
    distanceOf sym x ≤ s.hb.fill.toNat →
    n = (if sym ≤ 3 then 0 else sym / 2 - 1) ∧
    ∃ t, exec i s = .next t ∧ HistoryOk t ∧ t.src = s.src ∧ t.br = s.br ∧ t.bd = { s.bd with expect := .litlen } ∧
      t.out.length = s.out.length + s.bd.runLen.toNat ∧
      (∀ k, k < s.out.length → t.out[k]? = s.out[k]?) ∧
      (∀ k, k < s.bd.runLen.toNat →
        t.out[s.out.length + k]? = t.out[s.out.length + k - distanceOf sym x]?) ∧
      (∀ a, (∀ k, k < s.bd.runLen.toNat → a ≠ (s.hb.cur.toNat + k) % 32768) → t.hb.mem.read a = s.hb.mem.read a)

/-- 45_huffman_body.md R253: a distance beyond the bytes held fails with no byte produced by the pair. -/
def Obligations.TooFarDistancesFail : Prop :=
  ∀ (i : Instr) (s : State) (sym n x : Nat), formOf i = .symbol .dist sym n x → sym ≤ 29 → RunLenOk s →
    s.hb.fill.toNat < distanceOf sym x →
    ∃ t, exec i s = .next t ∧ t.bd.phase = .failed ∧ t.bd.err = some ⟨.malformed, .invalidLengthOrDistance, 0⟩ ∧
      t.out = s.out ∧ t.hb = s.hb ∧ t.src = s.src ∧ t.br = s.br

/-- The rows `DIST_30_RESERVED` and `DIST_31_RESERVED`, 45_huffman_body.md R251: the symbols 30 and 31 have no extra bits
and fail, no byte copied. -/
def Obligations.ReservedDistanceSymbolsFail : Prop :=
  ∀ (i : Instr) (s : State) (sym n x : Nat), formOf i = .symbol .dist sym n x → 30 ≤ sym →
    n = 0 ∧ exec i s =
      .next { s with bd := { s.bd with err := some ⟨.malformed, .reservedDistanceSymbol, 0⟩, phase := .failed } }

/-- The model's guards (60_exceptions.md R286, log 11): a value the design proves impossible raises `Internal(VALUE_RANGE)`,
never another class: a counter or an index already at its count, a run length outside 3..258, and a decoded symbol above its
alphabet (18, 287 or 31), which the step raises having consumed the symbol's bits. -/
def Obligations.ImpossibleValuesAreInternal : Prop :=
  ∀ (s t : State), t = { s with bd := { s.bd with err := some ⟨.internal, .valueRange, 0⟩, phase := .failed } } →
    (∀ v, countCl s.bd.hclen ≤ s.bd.clPos.toNat → exec (.cllen v) s = .next t) ∧
    (∀ i sym n x, formOf i = .symbol .clsym sym n x → codeLenCount s ≤ s.bd.idx.toNat → exec i s = .next t) ∧
    (∀ i sym n x, formOf i = .symbol .dist sym n x → sym ≤ 29 → ¬ RunLenOk s → exec i s = .next t) ∧
    (ReaderOk s → s.br.eos = false → ended s = false → ∀ (sym : Nat) (rest : List Bool),
      (s.bd.expect = .clsym → decodeSymbolFrom listBits s.bd.clCode (bitsAhead s) = .ok sym rest → 18 < sym →
        step s = .next { consume ((bitsAhead s).length - rest.length) s with bd := t.bd }) ∧
      (s.bd.expect = .litlen → decodeSymbolFrom listBits (litlenCode s) (bitsAhead s) = .ok sym rest → 287 < sym →
        step s = .next { consume ((bitsAhead s).length - rest.length) s with bd := t.bd }) ∧
      (s.bd.expect = .dist → decodeSymbolFrom listBits (distCode s) (bitsAhead s) = .ok sym rest → 31 < sym →
        step s = .next { consume ((bitsAhead s).length - rest.length) s with bd := t.bd }))

/-! ### The whole machine -/

/-- Only literals, distances and stored data reach the sink and the history buffer (10_state.md R47, 20_memory.md R63). -/
def Obligations.OnlyOutputElementsTouchTheHistory : Prop :=
  ∀ (i : Instr) (s t : State), exec i s = .next t →
    (∀ sym n x, formOf i = .symbol .litlen sym n x → 256 ≤ sym) →
    (∀ sym n x, formOf i ≠ .symbol .dist sym n x) →
    (∀ len nlen, i ≠ .storedLenNlen len nlen) →
    t.hb = s.hb ∧ t.out = s.out

/-- Beyond its own bits no element touches the reader but the two of a stored block, which align and copy (10_state.md R47). -/
def Obligations.OnlyStoredBlocksReadFurther : Prop :=
  ∀ (i : Instr) (s t : State), exec i s = .next t →
    (∀ f, i ≠ .btype0Stored f) → (∀ len nlen, i ≠ .storedLenNlen len nlen) →
    t.src = s.src ∧ t.br = s.br

/-- The code tables change only where a dynamic header builds them (10_state.md R40, 20_memory.md R66): a literal/length or
distance element, a stored block and a block header leave all three as they are. -/
def Obligations.OnlyDynamicHeadersBuildCodes : Prop :=
  ∀ (i : Instr) (s t : State), exec i s = .next t →
    (∀ v, i ≠ .cllen v) → (∀ sym n x, formOf i ≠ .symbol .clsym sym n x) →
    t.bd.clCode = s.bd.clCode ∧ t.bd.llCode = s.bd.llCode ∧ t.bd.dCode = s.bd.dCode

/-- 60_exceptions.md R292, 10_state.md R28, 20_memory.md R79: no step retracts output, gives a byte back to the source or
changes what the source holds. -/
def Obligations.OutputIsNeverRetracted : Prop :=
  ∀ s t : State, step s = .next t →
    s.out <+: t.out ∧ t.src.bytes = s.src.bytes ∧ s.src.pos ≤ t.src.pos

/-- 10_state.md R33: the phases follow the source's state machine: from the header to a block, from a block to the header
or, only when the block was final, to `Done`; from anywhere to `Failed`; nothing leaves `Done` or `Failed`. -/
def Obligations.PhasesFollowTheStateMachine : Prop :=
  ∀ s t : State, Safe s → step s = .next t → t.bd.phase = s.bd.phase ∨ (t.bd.phase = .failed ∧ s.bd.phase ≠ .done) ∨
    (s.bd.phase = .readingHeader ∧
      (t.bd.phase = .storedBlock ∨ t.bd.phase = .fixedHuffmanBlock ∨ t.bd.phase = .dynamicHuffmanBlock)) ∨
    ((s.bd.phase = .storedBlock ∨ s.bd.phase = .fixedHuffmanBlock ∨ s.bd.phase = .dynamicHuffmanBlock) ∧
      ((t.bd.phase = .readingHeader ∧ s.bd.bfinal = false) ∨ (t.bd.phase = .done ∧ s.bd.bfinal = true)))

/-- 70_reset_and_hazards.md R326: from a safe state, a start among them, the run ends in `Done` or `Failed`, within two
steps for each bit ahead and two more. This holds of the model because its source answers every request and its sink accepts
every byte, both by the model's choice (DESIGN CHOICE, logs 13 and 14; the assumption that R332 and D25 ask for): beside a
source that never answers, or a sink that stalls for ever, the hardware does not end. Steps after the end change nothing
(log 10), so the bound may lie beyond it. -/
def Obligations.EveryRunEnds : Prop :=
  ∀ s : State, Safe s → ∃ t, Sys2Proof.core.run (2 * (bitsAhead s).length + 2) s = .next t ∧ ended t = true

/-- 70_reset_and_hazards.md R322 (95_test_vectors.md section 4, property 7): a run that ends in `Done` after `p` bytes ends
in the same state whatever stands behind those bytes in the source. Steps after the end change nothing (log 10), so `k` may
count some. -/
def Obligations.BytesAfterTheStreamAreNeverRead : Prop :=
  ∀ (bytes behind : List Byte) (k : Nat) (t : State), Sys2Proof.core.run k (startOn bytes) = .next t →
    t.bd.phase = .done →
    Sys2Proof.core.run k (startOn (bytes.take t.src.pos ++ behind)) =
      .next { t with src := { bytes := bytes.take t.src.pos ++ behind, pos := t.src.pos } }

/-- 95_test_vectors.md section 4, property 6: where a run to `Done` has requested every byte, the run on any proper prefix
of the bytes ends `Truncated`, its output a prefix of the whole output. The source and the sink answer every request, and
steps after the end change nothing, so `k` may count some (the model's choice, logs 13, 14 and 10). -/
def Obligations.ProperPrefixesAreTruncated : Prop :=
  ∀ (bytes : List Byte) (k m : Nat) (t : State), Sys2Proof.core.run k (startOn bytes) = .next t →
    t.bd.phase = .done → t.src.pos = bytes.length → m < bytes.length →
    ∃ j u, Sys2Proof.core.run j (startOn (bytes.take m)) = .next u ∧ u.bd.phase = .failed ∧
      u.bd.err = some ⟨.truncated, .unexpectedEnd, 0⟩ ∧ u.out <+: t.out
end

