-- ==== Sys2Proof/Laws/CanonicalCode.lean ====
section
/-!
SUPPORT. The builder: the two constant codes are what `build` answers on the fixed lengths; what an accepted length step
says.
-/

namespace Sys2Proof.Machine

/-- `FIXED_LL_CODE` is `build` of its code lengths (10_state.md R41, 41_canonical_code.md R159). -/
theorem build_fixedLL : build Config.fixedLLLens = .ok fixedLLCode := by decide +kernel

/-- `FIXED_D_CODE` is `build` of its code lengths (10_state.md R41, 41_canonical_code.md R159). -/
theorem build_fixedD : build Config.fixedDLens = .ok fixedDCode := by decide +kernel

/-- The fixed literal/length code is one that `build` accepted. -/
theorem acceptedCode_fixedLL : AcceptedCode 288 fixedLLCode :=
  ⟨_, by simp only [Config.fixedLLLens, List.length_append, List.length_replicate]; decide, build_fixedLL⟩

/-- The fixed distance code is one that `build` accepted. -/
theorem acceptedCode_fixedD : AcceptedCode 32 fixedDCode :=
  ⟨_, by simp only [Config.fixedDLens, List.length_replicate]; decide, build_fixedD⟩

/-- All that one length step answers when it accepts: the counter has grown by the symbols of that length, it has stayed
within `2^L`, and each symbol of that length has one entry, in ascending order. -/
theorem assignLength_ok {L s next next' : Nat} {ls : List (BitVec 4)} {table : Code}
    (h : assignLength L s next ls = .ok (next', table)) :
    next' = next + ls.countP (fun l => l.toNat == L) ∧ (next ≤ 2 ^ L → next' ≤ 2 ^ L) ∧ table.length = next' - next ∧
      ∀ e ∈ table, ∃ i v, ls[i]?.map BitVec.toNat = some L ∧ e.sym = BitVec.ofNat 9 (s + i) ∧ next ≤ v ∧ v < next' ∧
        v < 2 ^ L ∧ e.key = sentinelKey L v := by
  induction ls generalizing s next next' table with
  | nil => simp only [assignLength] at h; cases h; simp
  | cons l ls ih =>
    simp only [assignLength] at h
    split at h
    · rename_i hl
      split at h
      · cases h
      · rename_i hlt
        split at h
        · cases h
        · rename_i n t hrec
          cases h
          obtain ⟨h1, h2, h3, h4⟩ := ih hrec
          refine ⟨by simp [hl, h1]; omega, fun _ => h2 (by omega), by simp [h3]; omega, ?_⟩
          intro e he
          rcases List.mem_cons.mp he with rfl | he
          · exact ⟨0, next, by simp [hl], by simp, by omega, by omega, by omega, rfl⟩
          · obtain ⟨i, v, a, b, c, d, e1, f⟩ := h4 e he
            exact ⟨i + 1, v, by simpa using a, by rw [b]; congr 1; omega, by omega, d, e1, f⟩
    · rename_i hl
      obtain ⟨h1, h2, h3, h4⟩ := ih h
      refine ⟨by simp [hl, h1], h2, h3, ?_⟩
      intro e he
      obtain ⟨i, v, a, b, c, d, e1, f⟩ := h4 e he
      exact ⟨i + 1, v, by simpa using a, by rw [b]; congr 1; omega, c, d, e1, f⟩

/-- The length steps one after the other. -/
theorem assignLengths_succ {lens : List (BitVec 4)} {k L next next'' : Nat} {table : Code} :
    assignLengths lens (k + 1) L next = .ok (next'', table) ↔
      ∃ next' t t', assignLength L 0 (2 * next) lens = .ok (next', t) ∧
        assignLengths lens k (L + 1) next' = .ok (next'', t') ∧ table = t ++ t' := by
  simp only [assignLengths]
  constructor
  · intro h
    split at h
    · cases h
    · rename_i n t h1
      split at h
      · cases h
      · rename_i n' t' h2
        cases h
        exact ⟨n, t, t', h1, h2, rfl⟩
  · rintro ⟨n, t, t', h1, h2, rfl⟩
    rw [h1]; simp only; rw [h2]

/-- `build` accepts where its length steps do and the counter ends at `2^15` (R153). -/
theorem build_ok {lens : List (BitVec 4)} {code : Code} :
    build lens = .ok code ↔ assignLengths lens 15 1 0 = .ok (2 ^ 15, code) := by
  unfold build
  constructor
  · intro h
    split at h
    · cases h
    · rename_i n t h1
      split at h
      · rename_i hn
        cases h
        rw [hn] at h1
        exact h1
      · cases h
  · intro h
    rw [show Config.maxLen = 15 from rfl, h]
    simp

end Sys2Proof.Machine
end

