-- ==== Sys2Proof/Laws/State.lean ====
section
/-!
SUPPORT. One lemma per field per named update of the state, so that no proof unfolds an update.
-/

namespace Sys2Proof.Machine

/-! ### `raise` -/

@[simp] theorem raise_src (c : Cause) (info : BitVec 8) (s : State) : (raise c info s).src = s.src := rfl
@[simp] theorem raise_br (c : Cause) (info : BitVec 8) (s : State) : (raise c info s).br = s.br := rfl
@[simp] theorem raise_hb (c : Cause) (info : BitVec 8) (s : State) : (raise c info s).hb = s.hb := rfl
@[simp] theorem raise_out (c : Cause) (info : BitVec 8) (s : State) : (raise c info s).out = s.out := rfl
@[simp] theorem raise_bd_phase (c : Cause) (info : BitVec 8) (s : State) : (raise c info s).bd.phase = .failed := rfl
@[simp] theorem raise_bd_bfinal (c : Cause) (info : BitVec 8) (s : State) : (raise c info s).bd.bfinal = s.bd.bfinal := rfl
@[simp] theorem raise_bd_btype (c : Cause) (info : BitVec 8) (s : State) : (raise c info s).bd.btype = s.bd.btype := rfl
@[simp] theorem raise_bd_len (c : Cause) (info : BitVec 8) (s : State) : (raise c info s).bd.len = s.bd.len := rfl
@[simp] theorem raise_bd_nlen (c : Cause) (info : BitVec 8) (s : State) : (raise c info s).bd.nlen = s.bd.nlen := rfl
@[simp] theorem raise_bd_cnt (c : Cause) (info : BitVec 8) (s : State) : (raise c info s).bd.cnt = s.bd.cnt := rfl
@[simp] theorem raise_bd_hlit (c : Cause) (info : BitVec 8) (s : State) : (raise c info s).bd.hlit = s.bd.hlit := rfl
@[simp] theorem raise_bd_hdist (c : Cause) (info : BitVec 8) (s : State) : (raise c info s).bd.hdist = s.bd.hdist := rfl
@[simp] theorem raise_bd_hclen (c : Cause) (info : BitVec 8) (s : State) : (raise c info s).bd.hclen = s.bd.hclen := rfl
@[simp] theorem raise_bd_clLen (c : Cause) (info : BitVec 8) (s : State) : (raise c info s).bd.clLen = s.bd.clLen := rfl
@[simp] theorem raise_bd_codeLen (c : Cause) (info : BitVec 8) (s : State) : (raise c info s).bd.codeLen = s.bd.codeLen := rfl
@[simp] theorem raise_bd_idx (c : Cause) (info : BitVec 8) (s : State) : (raise c info s).bd.idx = s.bd.idx := rfl
@[simp] theorem raise_bd_clCode (c : Cause) (info : BitVec 8) (s : State) : (raise c info s).bd.clCode = s.bd.clCode := rfl
@[simp] theorem raise_bd_llCode (c : Cause) (info : BitVec 8) (s : State) : (raise c info s).bd.llCode = s.bd.llCode := rfl
@[simp] theorem raise_bd_dCode (c : Cause) (info : BitVec 8) (s : State) : (raise c info s).bd.dCode = s.bd.dCode := rfl
@[simp] theorem raise_bd_useFixed (c : Cause) (info : BitVec 8) (s : State) : (raise c info s).bd.useFixed = s.bd.useFixed := rfl
@[simp] theorem raise_bd_dPresent (c : Cause) (info : BitVec 8) (s : State) : (raise c info s).bd.dPresent = s.bd.dPresent := rfl
@[simp] theorem raise_bd_err (c : Cause) (info : BitVec 8) (s : State) : (raise c info s).bd.err = some ⟨c.cls, c, info⟩ := rfl
@[simp] theorem raise_bd_expect (c : Cause) (info : BitVec 8) (s : State) : (raise c info s).bd.expect = s.bd.expect := rfl
@[simp] theorem raise_bd_clPos (c : Cause) (info : BitVec 8) (s : State) : (raise c info s).bd.clPos = s.bd.clPos := rfl
@[simp] theorem raise_bd_runLen (c : Cause) (info : BitVec 8) (s : State) : (raise c info s).bd.runLen = s.bd.runLen := rfl

/-! ### `sinkPut` -/

@[simp] theorem sinkPut_src (b : Byte) (s : State) : (sinkPut b s).src = s.src := rfl
@[simp] theorem sinkPut_br (b : Byte) (s : State) : (sinkPut b s).br = s.br := rfl
@[simp] theorem sinkPut_hb (b : Byte) (s : State) : (sinkPut b s).hb = s.hb := rfl
@[simp] theorem sinkPut_out (b : Byte) (s : State) : (sinkPut b s).out = s.out ++ [b] := rfl
@[simp] theorem sinkPut_bd_phase (b : Byte) (s : State) : (sinkPut b s).bd.phase = s.bd.phase := rfl
@[simp] theorem sinkPut_bd_bfinal (b : Byte) (s : State) : (sinkPut b s).bd.bfinal = s.bd.bfinal := rfl
@[simp] theorem sinkPut_bd_btype (b : Byte) (s : State) : (sinkPut b s).bd.btype = s.bd.btype := rfl
@[simp] theorem sinkPut_bd_len (b : Byte) (s : State) : (sinkPut b s).bd.len = s.bd.len := rfl
@[simp] theorem sinkPut_bd_nlen (b : Byte) (s : State) : (sinkPut b s).bd.nlen = s.bd.nlen := rfl
@[simp] theorem sinkPut_bd_cnt (b : Byte) (s : State) : (sinkPut b s).bd.cnt = s.bd.cnt := rfl
@[simp] theorem sinkPut_bd_hlit (b : Byte) (s : State) : (sinkPut b s).bd.hlit = s.bd.hlit := rfl
@[simp] theorem sinkPut_bd_hdist (b : Byte) (s : State) : (sinkPut b s).bd.hdist = s.bd.hdist := rfl
@[simp] theorem sinkPut_bd_hclen (b : Byte) (s : State) : (sinkPut b s).bd.hclen = s.bd.hclen := rfl
@[simp] theorem sinkPut_bd_clLen (b : Byte) (s : State) : (sinkPut b s).bd.clLen = s.bd.clLen := rfl
@[simp] theorem sinkPut_bd_codeLen (b : Byte) (s : State) : (sinkPut b s).bd.codeLen = s.bd.codeLen := rfl
@[simp] theorem sinkPut_bd_idx (b : Byte) (s : State) : (sinkPut b s).bd.idx = s.bd.idx := rfl
@[simp] theorem sinkPut_bd_clCode (b : Byte) (s : State) : (sinkPut b s).bd.clCode = s.bd.clCode := rfl
@[simp] theorem sinkPut_bd_llCode (b : Byte) (s : State) : (sinkPut b s).bd.llCode = s.bd.llCode := rfl
@[simp] theorem sinkPut_bd_dCode (b : Byte) (s : State) : (sinkPut b s).bd.dCode = s.bd.dCode := rfl
@[simp] theorem sinkPut_bd_useFixed (b : Byte) (s : State) : (sinkPut b s).bd.useFixed = s.bd.useFixed := rfl
@[simp] theorem sinkPut_bd_dPresent (b : Byte) (s : State) : (sinkPut b s).bd.dPresent = s.bd.dPresent := rfl
@[simp] theorem sinkPut_bd_err (b : Byte) (s : State) : (sinkPut b s).bd.err = s.bd.err := rfl
@[simp] theorem sinkPut_bd_expect (b : Byte) (s : State) : (sinkPut b s).bd.expect = s.bd.expect := rfl
@[simp] theorem sinkPut_bd_clPos (b : Byte) (s : State) : (sinkPut b s).bd.clPos = s.bd.clPos := rfl
@[simp] theorem sinkPut_bd_runLen (b : Byte) (s : State) : (sinkPut b s).bd.runLen = s.bd.runLen := rfl

/-! ### `append` -/

@[simp] theorem append_src (b : Byte) (s : State) : (append b s).src = s.src := rfl
@[simp] theorem append_br (b : Byte) (s : State) : (append b s).br = s.br := rfl
@[simp] theorem append_out (b : Byte) (s : State) : (append b s).out = s.out := rfl
@[simp] theorem append_bd_phase (b : Byte) (s : State) : (append b s).bd.phase = s.bd.phase := rfl
@[simp] theorem append_bd_bfinal (b : Byte) (s : State) : (append b s).bd.bfinal = s.bd.bfinal := rfl
@[simp] theorem append_bd_btype (b : Byte) (s : State) : (append b s).bd.btype = s.bd.btype := rfl
@[simp] theorem append_bd_len (b : Byte) (s : State) : (append b s).bd.len = s.bd.len := rfl
@[simp] theorem append_bd_nlen (b : Byte) (s : State) : (append b s).bd.nlen = s.bd.nlen := rfl
@[simp] theorem append_bd_cnt (b : Byte) (s : State) : (append b s).bd.cnt = s.bd.cnt := rfl
@[simp] theorem append_bd_hlit (b : Byte) (s : State) : (append b s).bd.hlit = s.bd.hlit := rfl
@[simp] theorem append_bd_hdist (b : Byte) (s : State) : (append b s).bd.hdist = s.bd.hdist := rfl
@[simp] theorem append_bd_hclen (b : Byte) (s : State) : (append b s).bd.hclen = s.bd.hclen := rfl
@[simp] theorem append_bd_clLen (b : Byte) (s : State) : (append b s).bd.clLen = s.bd.clLen := rfl
@[simp] theorem append_bd_codeLen (b : Byte) (s : State) : (append b s).bd.codeLen = s.bd.codeLen := rfl
@[simp] theorem append_bd_idx (b : Byte) (s : State) : (append b s).bd.idx = s.bd.idx := rfl
@[simp] theorem append_bd_clCode (b : Byte) (s : State) : (append b s).bd.clCode = s.bd.clCode := rfl
@[simp] theorem append_bd_llCode (b : Byte) (s : State) : (append b s).bd.llCode = s.bd.llCode := rfl
@[simp] theorem append_bd_dCode (b : Byte) (s : State) : (append b s).bd.dCode = s.bd.dCode := rfl
@[simp] theorem append_bd_useFixed (b : Byte) (s : State) : (append b s).bd.useFixed = s.bd.useFixed := rfl
@[simp] theorem append_bd_dPresent (b : Byte) (s : State) : (append b s).bd.dPresent = s.bd.dPresent := rfl
@[simp] theorem append_bd_err (b : Byte) (s : State) : (append b s).bd.err = s.bd.err := rfl
@[simp] theorem append_bd_expect (b : Byte) (s : State) : (append b s).bd.expect = s.bd.expect := rfl
@[simp] theorem append_bd_clPos (b : Byte) (s : State) : (append b s).bd.clPos = s.bd.clPos := rfl
@[simp] theorem append_bd_runLen (b : Byte) (s : State) : (append b s).bd.runLen = s.bd.runLen := rfl

/-! ### `emit` -/

@[simp] theorem emit_src (b : Byte) (s : State) : (emit b s).src = s.src := rfl
@[simp] theorem emit_br (b : Byte) (s : State) : (emit b s).br = s.br := rfl
@[simp] theorem emit_hb (b : Byte) (s : State) : (emit b s).hb = (append b s).hb := rfl
@[simp] theorem emit_out (b : Byte) (s : State) : (emit b s).out = s.out ++ [b] := rfl
@[simp] theorem emit_bd_phase (b : Byte) (s : State) : (emit b s).bd.phase = s.bd.phase := rfl
@[simp] theorem emit_bd_bfinal (b : Byte) (s : State) : (emit b s).bd.bfinal = s.bd.bfinal := rfl
@[simp] theorem emit_bd_btype (b : Byte) (s : State) : (emit b s).bd.btype = s.bd.btype := rfl
@[simp] theorem emit_bd_len (b : Byte) (s : State) : (emit b s).bd.len = s.bd.len := rfl
@[simp] theorem emit_bd_nlen (b : Byte) (s : State) : (emit b s).bd.nlen = s.bd.nlen := rfl
@[simp] theorem emit_bd_cnt (b : Byte) (s : State) : (emit b s).bd.cnt = s.bd.cnt := rfl
@[simp] theorem emit_bd_hlit (b : Byte) (s : State) : (emit b s).bd.hlit = s.bd.hlit := rfl
@[simp] theorem emit_bd_hdist (b : Byte) (s : State) : (emit b s).bd.hdist = s.bd.hdist := rfl
@[simp] theorem emit_bd_hclen (b : Byte) (s : State) : (emit b s).bd.hclen = s.bd.hclen := rfl
@[simp] theorem emit_bd_clLen (b : Byte) (s : State) : (emit b s).bd.clLen = s.bd.clLen := rfl
@[simp] theorem emit_bd_codeLen (b : Byte) (s : State) : (emit b s).bd.codeLen = s.bd.codeLen := rfl
@[simp] theorem emit_bd_idx (b : Byte) (s : State) : (emit b s).bd.idx = s.bd.idx := rfl
@[simp] theorem emit_bd_clCode (b : Byte) (s : State) : (emit b s).bd.clCode = s.bd.clCode := rfl
@[simp] theorem emit_bd_llCode (b : Byte) (s : State) : (emit b s).bd.llCode = s.bd.llCode := rfl
@[simp] theorem emit_bd_dCode (b : Byte) (s : State) : (emit b s).bd.dCode = s.bd.dCode := rfl
@[simp] theorem emit_bd_useFixed (b : Byte) (s : State) : (emit b s).bd.useFixed = s.bd.useFixed := rfl
@[simp] theorem emit_bd_dPresent (b : Byte) (s : State) : (emit b s).bd.dPresent = s.bd.dPresent := rfl
@[simp] theorem emit_bd_err (b : Byte) (s : State) : (emit b s).bd.err = s.bd.err := rfl
@[simp] theorem emit_bd_expect (b : Byte) (s : State) : (emit b s).bd.expect = s.bd.expect := rfl
@[simp] theorem emit_bd_clPos (b : Byte) (s : State) : (emit b s).bd.clPos = s.bd.clPos := rfl
@[simp] theorem emit_bd_runLen (b : Byte) (s : State) : (emit b s).bd.runLen = s.bd.runLen := rfl

/-! ### `setFixedFlags` -/

@[simp] theorem setFixedFlags_src  (s : State) : (setFixedFlags s).src = s.src := rfl
@[simp] theorem setFixedFlags_br  (s : State) : (setFixedFlags s).br = s.br := rfl
@[simp] theorem setFixedFlags_hb  (s : State) : (setFixedFlags s).hb = s.hb := rfl
@[simp] theorem setFixedFlags_out  (s : State) : (setFixedFlags s).out = s.out := rfl
@[simp] theorem setFixedFlags_bd_phase  (s : State) : (setFixedFlags s).bd.phase = s.bd.phase := rfl
@[simp] theorem setFixedFlags_bd_bfinal  (s : State) : (setFixedFlags s).bd.bfinal = s.bd.bfinal := rfl
@[simp] theorem setFixedFlags_bd_btype  (s : State) : (setFixedFlags s).bd.btype = s.bd.btype := rfl
@[simp] theorem setFixedFlags_bd_len  (s : State) : (setFixedFlags s).bd.len = s.bd.len := rfl
@[simp] theorem setFixedFlags_bd_nlen  (s : State) : (setFixedFlags s).bd.nlen = s.bd.nlen := rfl
@[simp] theorem setFixedFlags_bd_cnt  (s : State) : (setFixedFlags s).bd.cnt = s.bd.cnt := rfl
@[simp] theorem setFixedFlags_bd_hlit  (s : State) : (setFixedFlags s).bd.hlit = s.bd.hlit := rfl
@[simp] theorem setFixedFlags_bd_hdist  (s : State) : (setFixedFlags s).bd.hdist = s.bd.hdist := rfl
@[simp] theorem setFixedFlags_bd_hclen  (s : State) : (setFixedFlags s).bd.hclen = s.bd.hclen := rfl
@[simp] theorem setFixedFlags_bd_clLen  (s : State) : (setFixedFlags s).bd.clLen = s.bd.clLen := rfl
@[simp] theorem setFixedFlags_bd_codeLen  (s : State) : (setFixedFlags s).bd.codeLen = s.bd.codeLen := rfl
@[simp] theorem setFixedFlags_bd_idx  (s : State) : (setFixedFlags s).bd.idx = s.bd.idx := rfl
@[simp] theorem setFixedFlags_bd_clCode  (s : State) : (setFixedFlags s).bd.clCode = s.bd.clCode := rfl
@[simp] theorem setFixedFlags_bd_llCode  (s : State) : (setFixedFlags s).bd.llCode = s.bd.llCode := rfl
@[simp] theorem setFixedFlags_bd_dCode  (s : State) : (setFixedFlags s).bd.dCode = s.bd.dCode := rfl
@[simp] theorem setFixedFlags_bd_useFixed  (s : State) : (setFixedFlags s).bd.useFixed = true := rfl
@[simp] theorem setFixedFlags_bd_dPresent  (s : State) : (setFixedFlags s).bd.dPresent = true := rfl
@[simp] theorem setFixedFlags_bd_err  (s : State) : (setFixedFlags s).bd.err = s.bd.err := rfl
@[simp] theorem setFixedFlags_bd_expect  (s : State) : (setFixedFlags s).bd.expect = s.bd.expect := rfl
@[simp] theorem setFixedFlags_bd_clPos  (s : State) : (setFixedFlags s).bd.clPos = s.bd.clPos := rfl
@[simp] theorem setFixedFlags_bd_runLen  (s : State) : (setFixedFlags s).bd.runLen = s.bd.runLen := rfl

/-! ### `setDynamicFlags` -/

@[simp] theorem setDynamicFlags_src (p : Bool) (s : State) : (setDynamicFlags p s).src = s.src := rfl
@[simp] theorem setDynamicFlags_br (p : Bool) (s : State) : (setDynamicFlags p s).br = s.br := rfl
@[simp] theorem setDynamicFlags_hb (p : Bool) (s : State) : (setDynamicFlags p s).hb = s.hb := rfl
@[simp] theorem setDynamicFlags_out (p : Bool) (s : State) : (setDynamicFlags p s).out = s.out := rfl
@[simp] theorem setDynamicFlags_bd_phase (p : Bool) (s : State) : (setDynamicFlags p s).bd.phase = s.bd.phase := rfl
@[simp] theorem setDynamicFlags_bd_bfinal (p : Bool) (s : State) : (setDynamicFlags p s).bd.bfinal = s.bd.bfinal := rfl
@[simp] theorem setDynamicFlags_bd_btype (p : Bool) (s : State) : (setDynamicFlags p s).bd.btype = s.bd.btype := rfl
@[simp] theorem setDynamicFlags_bd_len (p : Bool) (s : State) : (setDynamicFlags p s).bd.len = s.bd.len := rfl
@[simp] theorem setDynamicFlags_bd_nlen (p : Bool) (s : State) : (setDynamicFlags p s).bd.nlen = s.bd.nlen := rfl
@[simp] theorem setDynamicFlags_bd_cnt (p : Bool) (s : State) : (setDynamicFlags p s).bd.cnt = s.bd.cnt := rfl
@[simp] theorem setDynamicFlags_bd_hlit (p : Bool) (s : State) : (setDynamicFlags p s).bd.hlit = s.bd.hlit := rfl
@[simp] theorem setDynamicFlags_bd_hdist (p : Bool) (s : State) : (setDynamicFlags p s).bd.hdist = s.bd.hdist := rfl
@[simp] theorem setDynamicFlags_bd_hclen (p : Bool) (s : State) : (setDynamicFlags p s).bd.hclen = s.bd.hclen := rfl
@[simp] theorem setDynamicFlags_bd_clLen (p : Bool) (s : State) : (setDynamicFlags p s).bd.clLen = s.bd.clLen := rfl
@[simp] theorem setDynamicFlags_bd_codeLen (p : Bool) (s : State) : (setDynamicFlags p s).bd.codeLen = s.bd.codeLen := rfl
@[simp] theorem setDynamicFlags_bd_idx (p : Bool) (s : State) : (setDynamicFlags p s).bd.idx = s.bd.idx := rfl
@[simp] theorem setDynamicFlags_bd_clCode (p : Bool) (s : State) : (setDynamicFlags p s).bd.clCode = s.bd.clCode := rfl
@[simp] theorem setDynamicFlags_bd_llCode (p : Bool) (s : State) : (setDynamicFlags p s).bd.llCode = s.bd.llCode := rfl
@[simp] theorem setDynamicFlags_bd_dCode (p : Bool) (s : State) : (setDynamicFlags p s).bd.dCode = s.bd.dCode := rfl
@[simp] theorem setDynamicFlags_bd_useFixed (p : Bool) (s : State) : (setDynamicFlags p s).bd.useFixed = false := rfl
@[simp] theorem setDynamicFlags_bd_dPresent (p : Bool) (s : State) : (setDynamicFlags p s).bd.dPresent = p := rfl
@[simp] theorem setDynamicFlags_bd_err (p : Bool) (s : State) : (setDynamicFlags p s).bd.err = s.bd.err := rfl
@[simp] theorem setDynamicFlags_bd_expect (p : Bool) (s : State) : (setDynamicFlags p s).bd.expect = s.bd.expect := rfl
@[simp] theorem setDynamicFlags_bd_clPos (p : Bool) (s : State) : (setDynamicFlags p s).bd.clPos = s.bd.clPos := rfl
@[simp] theorem setDynamicFlags_bd_runLen (p : Bool) (s : State) : (setDynamicFlags p s).bd.runLen = s.bd.runLen := rfl

/-! ### `append`, inside the history buffer -/

@[simp] theorem append_hb_mem (b : Byte) (s : State) : (append b s).hb.mem = s.hb.mem.write s.hb.cur.toNat b := rfl
@[simp] theorem append_hb_cur (b : Byte) (s : State) : (append b s).hb.cur = s.hb.cur + 1 := rfl
@[simp] theorem append_hb_fill (b : Byte) (s : State) :
    (append b s).hb.fill = BitVec.ofNat 16 (min (s.hb.fill.toNat + 1) Config.capacity) := rfl

/-! ### `consume`, which changes `src.pos`, `br.rem` and `br.cur` alone -/

theorem consume_zero (s : State) : consume 0 s = s := rfl

@[simp] theorem consume_hb (k : Nat) (s : State) : (consume k s).hb = s.hb := by unfold consume; split <;> rfl
@[simp] theorem consume_out (k : Nat) (s : State) : (consume k s).out = s.out := by unfold consume; split <;> rfl
@[simp] theorem consume_bd (k : Nat) (s : State) : (consume k s).bd = s.bd := by unfold consume; split <;> rfl
@[simp] theorem consume_src_bytes (k : Nat) (s : State) : (consume k s).src.bytes = s.src.bytes := by unfold consume; split <;> rfl
@[simp] theorem consume_br_eos (k : Nat) (s : State) : (consume k s).br.eos = s.br.eos := by unfold consume; split <;> rfl

/-! ### `endOfBlock`, which changes `bd.phase` and, where another header follows, `bd.expect` alone -/

@[simp] theorem endOfBlock_src (s : State) : (endOfBlock s).src = s.src := by unfold endOfBlock; split <;> rfl
@[simp] theorem endOfBlock_br (s : State) : (endOfBlock s).br = s.br := by unfold endOfBlock; split <;> rfl
@[simp] theorem endOfBlock_hb (s : State) : (endOfBlock s).hb = s.hb := by unfold endOfBlock; split <;> rfl
@[simp] theorem endOfBlock_out (s : State) : (endOfBlock s).out = s.out := by unfold endOfBlock; split <;> rfl
@[simp] theorem endOfBlock_bd_bfinal (s : State) : (endOfBlock s).bd.bfinal = s.bd.bfinal := by unfold endOfBlock; split <;> rfl
@[simp] theorem endOfBlock_bd_btype (s : State) : (endOfBlock s).bd.btype = s.bd.btype := by unfold endOfBlock; split <;> rfl
@[simp] theorem endOfBlock_bd_len (s : State) : (endOfBlock s).bd.len = s.bd.len := by unfold endOfBlock; split <;> rfl
@[simp] theorem endOfBlock_bd_nlen (s : State) : (endOfBlock s).bd.nlen = s.bd.nlen := by unfold endOfBlock; split <;> rfl
@[simp] theorem endOfBlock_bd_cnt (s : State) : (endOfBlock s).bd.cnt = s.bd.cnt := by unfold endOfBlock; split <;> rfl
@[simp] theorem endOfBlock_bd_hlit (s : State) : (endOfBlock s).bd.hlit = s.bd.hlit := by unfold endOfBlock; split <;> rfl
@[simp] theorem endOfBlock_bd_hdist (s : State) : (endOfBlock s).bd.hdist = s.bd.hdist := by unfold endOfBlock; split <;> rfl
@[simp] theorem endOfBlock_bd_hclen (s : State) : (endOfBlock s).bd.hclen = s.bd.hclen := by unfold endOfBlock; split <;> rfl
@[simp] theorem endOfBlock_bd_clLen (s : State) : (endOfBlock s).bd.clLen = s.bd.clLen := by unfold endOfBlock; split <;> rfl
@[simp] theorem endOfBlock_bd_codeLen (s : State) : (endOfBlock s).bd.codeLen = s.bd.codeLen := by unfold endOfBlock; split <;> rfl
@[simp] theorem endOfBlock_bd_idx (s : State) : (endOfBlock s).bd.idx = s.bd.idx := by unfold endOfBlock; split <;> rfl
@[simp] theorem endOfBlock_bd_clCode (s : State) : (endOfBlock s).bd.clCode = s.bd.clCode := by unfold endOfBlock; split <;> rfl
@[simp] theorem endOfBlock_bd_llCode (s : State) : (endOfBlock s).bd.llCode = s.bd.llCode := by unfold endOfBlock; split <;> rfl
@[simp] theorem endOfBlock_bd_dCode (s : State) : (endOfBlock s).bd.dCode = s.bd.dCode := by unfold endOfBlock; split <;> rfl
@[simp] theorem endOfBlock_bd_useFixed (s : State) : (endOfBlock s).bd.useFixed = s.bd.useFixed := by unfold endOfBlock; split <;> rfl
@[simp] theorem endOfBlock_bd_dPresent (s : State) : (endOfBlock s).bd.dPresent = s.bd.dPresent := by unfold endOfBlock; split <;> rfl
@[simp] theorem endOfBlock_bd_err (s : State) : (endOfBlock s).bd.err = s.bd.err := by unfold endOfBlock; split <;> rfl
@[simp] theorem endOfBlock_bd_clPos (s : State) : (endOfBlock s).bd.clPos = s.bd.clPos := by unfold endOfBlock; split <;> rfl
@[simp] theorem endOfBlock_bd_runLen (s : State) : (endOfBlock s).bd.runLen = s.bd.runLen := by unfold endOfBlock; split <;> rfl
@[simp] theorem endOfBlock_bd_phase (s : State) : (endOfBlock s).bd.phase = if s.bd.bfinal then .done else .readingHeader := by
  unfold endOfBlock; split <;> rfl
@[simp] theorem endOfBlock_bd_expect (s : State) : (endOfBlock s).bd.expect = if s.bd.bfinal then s.bd.expect else .header := by
  unfold endOfBlock; split <;> rfl

/-! ### `latch` and `raiseReject`: a rejected read leaves the units and the environment alone -/

@[simp] theorem latch_src (got : Partial) (s : State) : (latch got s).src = s.src := by cases got <;> rfl
@[simp] theorem latch_br (got : Partial) (s : State) : (latch got s).br = s.br := by cases got <;> rfl
@[simp] theorem latch_hb (got : Partial) (s : State) : (latch got s).hb = s.hb := by cases got <;> rfl
@[simp] theorem latch_out (got : Partial) (s : State) : (latch got s).out = s.out := by cases got <;> rfl
@[simp] theorem latch_bd_phase (got : Partial) (s : State) : (latch got s).bd.phase = s.bd.phase := by cases got <;> rfl
@[simp] theorem latch_bd_btype (got : Partial) (s : State) : (latch got s).bd.btype = s.bd.btype := by cases got <;> rfl
@[simp] theorem latch_bd_nlen (got : Partial) (s : State) : (latch got s).bd.nlen = s.bd.nlen := by cases got <;> rfl
@[simp] theorem latch_bd_cnt (got : Partial) (s : State) : (latch got s).bd.cnt = s.bd.cnt := by cases got <;> rfl
@[simp] theorem latch_bd_hlit (got : Partial) (s : State) : (latch got s).bd.hlit = s.bd.hlit := by cases got <;> rfl
@[simp] theorem latch_bd_hdist (got : Partial) (s : State) : (latch got s).bd.hdist = s.bd.hdist := by cases got <;> rfl
@[simp] theorem latch_bd_hclen (got : Partial) (s : State) : (latch got s).bd.hclen = s.bd.hclen := by cases got <;> rfl
@[simp] theorem latch_bd_clLen (got : Partial) (s : State) : (latch got s).bd.clLen = s.bd.clLen := by cases got <;> rfl
@[simp] theorem latch_bd_codeLen (got : Partial) (s : State) : (latch got s).bd.codeLen = s.bd.codeLen := by cases got <;> rfl
@[simp] theorem latch_bd_idx (got : Partial) (s : State) : (latch got s).bd.idx = s.bd.idx := by cases got <;> rfl
@[simp] theorem latch_bd_clCode (got : Partial) (s : State) : (latch got s).bd.clCode = s.bd.clCode := by cases got <;> rfl
@[simp] theorem latch_bd_llCode (got : Partial) (s : State) : (latch got s).bd.llCode = s.bd.llCode := by cases got <;> rfl
@[simp] theorem latch_bd_dCode (got : Partial) (s : State) : (latch got s).bd.dCode = s.bd.dCode := by cases got <;> rfl
@[simp] theorem latch_bd_useFixed (got : Partial) (s : State) : (latch got s).bd.useFixed = s.bd.useFixed := by cases got <;> rfl
@[simp] theorem latch_bd_dPresent (got : Partial) (s : State) : (latch got s).bd.dPresent = s.bd.dPresent := by cases got <;> rfl
@[simp] theorem latch_bd_err (got : Partial) (s : State) : (latch got s).bd.err = s.bd.err := by cases got <;> rfl
@[simp] theorem latch_bd_expect (got : Partial) (s : State) : (latch got s).bd.expect = s.bd.expect := by cases got <;> rfl
@[simp] theorem latch_bd_clPos (got : Partial) (s : State) : (latch got s).bd.clPos = s.bd.clPos := by cases got <;> rfl
@[simp] theorem latch_bd_runLen (got : Partial) (s : State) : (latch got s).bd.runLen = s.bd.runLen := by cases got <;> rfl
@[simp] theorem raiseReject_src (r : Reject) (s : State) : (raiseReject r s).src = s.src := by cases r <;> simp [raiseReject]
@[simp] theorem raiseReject_br (r : Reject) (s : State) : (raiseReject r s).br = s.br := by cases r <;> simp [raiseReject]
@[simp] theorem raiseReject_hb (r : Reject) (s : State) : (raiseReject r s).hb = s.hb := by cases r <;> simp [raiseReject]
@[simp] theorem raiseReject_out (r : Reject) (s : State) : (raiseReject r s).out = s.out := by cases r <;> simp [raiseReject]
@[simp] theorem raiseReject_bd_phase (r : Reject) (s : State) : (raiseReject r s).bd.phase = .failed := by cases r <;> rfl
@[simp] theorem raiseBuild_src (e : BuildError) (which : BitVec 8) (s : State) : (raiseBuild e which s).src = s.src := by cases e <;> rfl
@[simp] theorem raiseBuild_br (e : BuildError) (which : BitVec 8) (s : State) : (raiseBuild e which s).br = s.br := by cases e <;> rfl
@[simp] theorem raiseBuild_hb (e : BuildError) (which : BitVec 8) (s : State) : (raiseBuild e which s).hb = s.hb := by cases e <;> rfl
@[simp] theorem raiseBuild_out (e : BuildError) (which : BitVec 8) (s : State) : (raiseBuild e which s).out = s.out := by cases e <;> rfl
@[simp] theorem raiseBuild_bd_phase (e : BuildError) (which : BitVec 8) (s : State) : (raiseBuild e which s).bd.phase = .failed := by cases e <;> rfl

end Sys2Proof.Machine
end

