-- ==== Sys2Proof/Laws/History.lean ====
section
/-!
SUPPORT. The history buffer: every memory operation keeps the canonical form, reads see writes, and what `copy` and the
emitting of bytes can do.
-/

namespace Sys2Proof.Machine

/-! ### Memory -/

theorem Memory.mem_put {m : Memory} {a : Nat} {b : Byte} {c : Host.Cell} (h : c ∈ put a b m) :
    (c = (a, b) ∧ b ≠ blank) ∨ c ∈ m := by
  unfold put at h
  split at h
  · exact .inr h
  · rename_i hb
    rcases List.mem_cons.mp h with h | h
    · exact .inl ⟨h, hb⟩
    · exact .inr h

theorem Memory.mem_write {m : Memory} {a : Nat} {b : Byte} {c : Host.Cell} (h : c ∈ m.write a b) :
    (c = (a, b) ∧ b ≠ blank) ∨ c ∈ m := by
  induction m with
  | nil => exact mem_put h
  | cons d m ih =>
    obtain ⟨k, x⟩ := d
    simp only [Memory.write] at h
    split at h
    · exact mem_put h
    · split at h
      · exact (mem_put h).imp_right (List.mem_cons_of_mem _)
      · rcases List.mem_cons.mp h with h | h
        · exact .inr (by simp [h])
        · exact (ih h).imp_right (List.mem_cons_of_mem _)

/-- An entry put before higher ones keeps the indices rising. -/
theorem Memory.put_rising {m : Memory} {a : Nat} (b : Byte) (h : m.Pairwise fun x y => x.1 < y.1)
    (ha : ∀ c ∈ m, a < c.1) : (put a b m).Pairwise fun x y => x.1 < y.1 := by
  unfold put
  split
  · exact h
  · exact List.pairwise_cons.mpr ⟨ha, h⟩

/-- A write keeps the canonical form. -/
theorem Memory.write_wf {m : Memory} (h : m.wf) {a : Nat} (ha : a < Config.capacity) (b : Byte) : (m.write a b).wf := by
  refine ⟨?_, fun c hc => ?_⟩
  · induction m with
    | nil => exact put_rising b List.Pairwise.nil nofun
    | cons d m ih =>
      obtain ⟨k, x⟩ := d
      obtain ⟨h1, h2⟩ := h
      have h3 := List.pairwise_cons.mp h1
      simp only [Memory.write]
      split
      · rename_i hlt
        refine put_rising b h1 fun c hc => ?_
        rcases List.mem_cons.mp hc with rfl | hc
        · exact hlt
        · exact Nat.lt_trans hlt (h3.1 c hc)
      · split
        · rename_i heq
          exact put_rising b h3.2 (by simpa [heq] using h3.1)
        · rename_i hge hne
          refine List.pairwise_cons.mpr ⟨fun c hc => ?_, ih ⟨h3.2, fun c hc => h2 c (List.mem_cons_of_mem _ hc)⟩⟩
          rcases Memory.mem_write hc with ⟨rfl, -⟩ | hc
          · show k < a; omega
          · exact h3.1 c hc
  · rcases Memory.mem_write hc with ⟨rfl, hb⟩ | hc
    · exact ⟨ha, hb⟩
    · exact h.2 c hc

theorem Memory.read_eq_blank_of_lt {m : Memory} {a : Nat} (h : ∀ c ∈ m, a < c.1) : m.read a = blank := by
  induction m with
  | nil => rfl
  | cons d m ih =>
    obtain ⟨k, x⟩ := d
    have hk : a < k := h (k, x) (by simp)
    simp only [Memory.read]
    rw [if_neg (by omega)]
    exact ih fun c hc => h c (List.mem_cons_of_mem _ hc)

theorem Memory.read_put_self {m : Memory} {a : Nat} (b : Byte) (h : ∀ c ∈ m, a < c.1) : (put a b m).read a = b := by
  unfold put
  split
  · rename_i hb; rw [read_eq_blank_of_lt h, hb]
  · simp [Memory.read]

theorem Memory.read_put_of_ne (m : Memory) {a c : Nat} (b : Byte) (h : c ≠ a) : (put a b m).read c = m.read c := by
  unfold put
  split
  · rfl
  · simp [Memory.read, h]

/-- A read after a write to the same index gives the byte written. -/
theorem Memory.read_write_self {m : Memory} (h : m.Pairwise fun x y => x.1 < y.1) (a : Nat) (b : Byte) :
    (m.write a b).read a = b := by
  induction m with
  | nil => exact read_put_self b nofun
  | cons d m ih =>
    obtain ⟨k, x⟩ := d
    have h3 := List.pairwise_cons.mp h
    simp only [Memory.write]
    split
    · rename_i hlt
      refine read_put_self b fun c hc => ?_
      rcases List.mem_cons.mp hc with rfl | hc
      · exact hlt
      · exact Nat.lt_trans hlt (h3.1 c hc)
    · split
      · rename_i heq
        exact read_put_self b (by simpa [heq] using h3.1)
      · rename_i hne
        simp [Memory.read, hne, ih h3.2]

/-- A write leaves every other index alone. -/
theorem Memory.read_write_of_ne (m : Memory) {a c : Nat} (b : Byte) (h : c ≠ a) : (m.write a b).read c = m.read c := by
  induction m with
  | nil => exact read_put_of_ne [] b h
  | cons d m ih =>
    obtain ⟨k, x⟩ := d
    simp only [Memory.write]
    split
    · exact read_put_of_ne _ b h
    · split
      · rename_i heq
        subst heq
        rw [read_put_of_ne m b h]
        simp [Memory.read, h]
      · simp [Memory.read, ih]

/-- Memories in canonical form that read the same everywhere are the same data. -/
theorem Memory.eq_of_read {m n : Memory} (hm : m.wf) (hn : n.wf) (h : ∀ a, m.read a = n.read a) : m = n := by
  induction m generalizing n with
  | nil =>
    cases n with
    | nil => rfl
    | cons d n =>
      have := h d.1
      simp only [Memory.read, if_true] at this
      exact absurd this.symm (hn.2 d (by simp)).2
  | cons d m ih =>
    obtain ⟨hp, hq⟩ := List.pairwise_cons.mp hm.1
    cases n with
    | nil =>
      have := h d.1
      simp only [Memory.read, if_true] at this
      exact absurd this (hm.2 d (by simp)).2
    | cons e n =>
      obtain ⟨hp', hq'⟩ := List.pairwise_cons.mp hn.1
      have hk : d.1 = e.1 := by
        rcases Nat.lt_trichotomy d.1 e.1 with hlt | heq | hlt
        · have := h d.1
          simp only [Memory.read, if_true, if_neg (Nat.ne_of_lt hlt)] at this
          rw [read_eq_blank_of_lt fun c hc => Nat.lt_trans hlt (hp' c hc)] at this
          exact absurd this (hm.2 d (by simp)).2
        · exact heq
        · have := h e.1
          simp only [Memory.read, if_true, if_neg (Nat.ne_of_lt hlt)] at this
          rw [read_eq_blank_of_lt fun c hc => Nat.lt_trans hlt (hp c hc)] at this
          exact absurd this.symm (hn.2 e (by simp)).2
      have hd : d = e := by
        have := h d.1
        simp only [Memory.read, if_true, if_pos hk] at this
        exact Prod.ext hk this
      subst hd
      rw [ih ⟨hq, fun c hc => hm.2 c (List.mem_cons_of_mem _ hc)⟩ ⟨hq', fun c hc => hn.2 c (List.mem_cons_of_mem _ hc)⟩]
      intro a
      by_cases ha : a = d.1
      · subst ha
        rw [read_eq_blank_of_lt hp, read_eq_blank_of_lt hp']
      · have := h a
        simpa only [Memory.read, if_neg ha] using this

/-- The memory after reset has the canonical form. -/
theorem Memory.reset_wf : State.reset.hb.mem.wf := by decide

/-! ### Emitting bytes -/

@[simp] theorem emit_hb_mem (b : Byte) (s : State) : (emit b s).hb.mem = s.hb.mem.write s.hb.cur.toNat b := rfl
@[simp] theorem emit_hb_cur (b : Byte) (s : State) : (emit b s).hb.cur = s.hb.cur + 1 := rfl
@[simp] theorem emit_hb_fill (b : Byte) (s : State) :
    (emit b s).hb.fill = BitVec.ofNat 16 (min (s.hb.fill.toNat + 1) Config.capacity) := rfl

theorem emit_bd (b : Byte) (s : State) : (emit b s).bd = s.bd := rfl

/-- A list of bytes sent and appended one by one. -/
def emitAll (bs : List Byte) (s : State) : State := bs.foldl (fun u b => emit b u) s

@[simp] theorem emitAll_nil (s : State) : emitAll [] s = s := rfl
theorem emitAll_cons (b : Byte) (bs : List Byte) (s : State) : emitAll (b :: bs) s = emitAll bs (emit b s) := rfl

@[simp] theorem emitAll_src (bs : List Byte) (s : State) : (emitAll bs s).src = s.src := by
  induction bs generalizing s with
  | nil => rfl
  | cons b bs ih => rw [emitAll_cons, ih]; rfl

@[simp] theorem emitAll_br (bs : List Byte) (s : State) : (emitAll bs s).br = s.br := by
  induction bs generalizing s with
  | nil => rfl
  | cons b bs ih => rw [emitAll_cons, ih]; rfl

@[simp] theorem emitAll_bd (bs : List Byte) (s : State) : (emitAll bs s).bd = s.bd := by
  induction bs generalizing s with
  | nil => rfl
  | cons b bs ih => rw [emitAll_cons, ih]; rfl

@[simp] theorem emitAll_out (bs : List Byte) (s : State) : (emitAll bs s).out = s.out ++ bs := by
  induction bs generalizing s with
  | nil => simp
  | cons b bs ih => rw [emitAll_cons, ih]; simp

/-! ### Copying -/

/-- All that the loop of `copy` can do: it emits as many bytes as it was asked for. -/
theorem copyLoop_cases (k : Nat) (r : BitVec 15) (s : State) :
    ∃ bs : List Byte, bs.length = k ∧ copyLoop k r s = emitAll bs s := by
  induction k generalizing r s with
  | zero => exact ⟨[], rfl, rfl⟩
  | succ k ih =>
    obtain ⟨bs, hl, h⟩ := ih (r + 1) (emit (s.hb.mem.read r.toNat) s)
    exact ⟨_ :: bs, by simp [hl], h⟩

/-- All that `copy` can do: the failure of R173 with no other effect, or the bytes emitted. -/
theorem copy_cases (d n : Nat) (s : State) :
    ((d < 1 ∨ s.hb.fill.toNat < d) ∧ copy d n s = raise .invalidLengthOrDistance 0 s) ∨
      (1 ≤ d ∧ d ≤ s.hb.fill.toNat ∧ ∃ bs : List Byte, bs.length = n ∧ copy d n s = emitAll bs s) := by
  unfold copy
  split
  · rename_i hc; exact .inl ⟨hc, rfl⟩
  · exact .inr ⟨by omega, by omega, copyLoop_cases _ _ _⟩

end Sys2Proof.Machine
end

