-- ==== Sys2Proof/Laws/PerInstr.lean ====
section
/-!
SUPPORT. The family `Forms`, one lemma per constructor: what an element is in the stream determines it. A symbol with its
extra bits gives the element back, the number and the value of the extra bits within the width of its alphabet's table; a
fixed-width field's bits decode to the element; the header bits select the dispatch.
-/

namespace Sys2Proof.Laws.Forms

open Sys2Proof.Machine

/-- The three header bits, the field's bits, or the symbol and its extra bits determine the element (30_encoding.md R92 to
R99, R103 to R105). -/
def Statement (i : Instr) : Prop :=
  match formOf i with
  | .header f t => btypeInstr f t = i
  | .field bits => ∃ c, ∀ rest, decode listBits c (bits ++ rest) = .ok i rest
  | .symbol .clsym sym n x => clInstr sym x = some i ∧ n = clExtraBits sym ∧ x < 2 ^ n
  | .symbol .litlen sym n x => litlenInstr sym x = some i ∧ n = lengthExtraBits sym ∧ x < 2 ^ n
  | .symbol .dist sym n x => distInstr sym x = some i ∧ n = distExtraBits sym ∧ x < 2 ^ n

/-! ### Reading a field back -/

theorem readBits_fieldBits (n x : Nat) (rest : List Bool) (h : x < 2 ^ n) :
    readBits listBits n (fieldBits n x ++ rest) = .ok x rest := by
  induction n generalizing x with
  | zero => simp only [Nat.pow_zero, Nat.lt_one_iff] at h; subst h; rfl
  | succ n ih =>
    have := ih (x / 2) (by omega)
    simp only [fieldBits, List.cons_append, readBits, listBits] at this ⊢
    rw [this]
    simp only [Got.bind]
    congr 1
    rcases Nat.mod_two_eq_zero_or_one x with h | h <;> simp [h] <;> omega

theorem readUintFrom_fieldBits (n x : Nat) (rest : List Bool) (hn : n ≤ 15) (h : x < 2 ^ n) :
    readUintFrom listBits n (fieldBits n x ++ rest) = .ok x rest := by
  rw [readUintFrom, if_neg (by simp [Config.maxUint]; omega), readBits_fieldBits n x rest h]

theorem fieldBits_add (m n x : Nat) : fieldBits (m + n) x = fieldBits m x ++ fieldBits n (x / 2 ^ m) := by
  induction m generalizing x with
  | zero => simp [fieldBits]
  | succ m ih =>
    rw [Nat.add_right_comm, fieldBits, ih, fieldBits, List.cons_append, Nat.div_div_eq_div_mul, Nat.pow_succ, Nat.mul_comm 2]

theorem fieldBits_mod (n x : Nat) : fieldBits n (x % 2 ^ n) = fieldBits n x := by
  induction n generalizing x with
  | zero => rfl
  | succ n ih =>
    simp only [fieldBits]
    have h2 : 2 ^ (n + 1) = 2 * 2 ^ n := by rw [Nat.pow_succ, Nat.mul_comm]
    rw [show x % 2 ^ (n + 1) / 2 = x / 2 % 2 ^ n by rw [h2, Nat.mod_mul_right_div_self], ih,
      show x % 2 ^ (n + 1) % 2 = x % 2 from Nat.mod_mod_of_dvd _ (by rw [h2]; exact Nat.dvd_mul_right 2 _)]

theorem readU16From_fieldBits (x : BitVec 16) (rest : List Bool) :
    readU16From listBits (fieldBits 16 x.toNat ++ rest) = .ok x rest := by
  have hx := x.isLt
  rw [show fieldBits 16 x.toNat = fieldBits 8 (x.toNat % 2 ^ 8) ++ fieldBits 8 (x.toNat / 2 ^ 8) by
    rw [fieldBits_mod]; exact fieldBits_add 8 8 x.toNat, List.append_assoc, readU16From,
    readUintFrom_fieldBits 8 _ _ (by omega) (Nat.mod_lt _ (by omega))]
  simp only [Got.bind]
  rw [readUintFrom_fieldBits 8 _ _ (by omega) (by omega)]
  simp only [Got.ok.injEq, and_true]
  apply BitVec.eq_of_toNat_eq
  rw [BitVec.toNat_ofNat]
  omega

/-! ### One lemma per constructor -/

theorem btype0Stored (f : Bool) : Statement (.btype0Stored f) := rfl
theorem btype1Fixed (f : Bool) : Statement (.btype1Fixed f) := rfl
theorem btype2Dynamic (f : Bool) : Statement (.btype2Dynamic f) := rfl
theorem btype3Reserved (f : Bool) : Statement (.btype3Reserved f) := rfl
theorem hdr (f : Bool) (t : BitVec 2) : Statement (.hdr f t) := by
  refine ⟨.header, fun rest => ?_⟩
  rw [List.cons_append]
  have := readUintFrom_fieldBits 2 t.toNat rest (by omega) t.isLt
  cases f <;> simp only [decode] <;> rw [show readUintFrom listBits 1 _ = .ok _ _ from rfl] <;>
    simp only [Got.bind] <;> rw [this] <;> simp [Got.noting]
theorem storedLenNlen (len nlen : BitVec 16) : Statement (.storedLenNlen len nlen) := by
  refine ⟨.storedLen, fun rest => ?_⟩
  rw [List.append_assoc]
  simp only [decode]
  rw [readU16From_fieldBits]
  simp only [Got.bind]
  rw [readU16From_fieldBits]
  rfl
theorem hlit (h : BitVec 5) : Statement (.hlit h) := by
  refine ⟨.hlit, fun rest => ?_⟩
  simp only [decode]
  rw [readUintFrom_fieldBits 5 _ _ (by omega) h.isLt]
  simp [Got.bind]
theorem hdist (d : BitVec 5) : Statement (.hdist d) := by
  refine ⟨.hdist, fun rest => ?_⟩
  simp only [decode]
  rw [readUintFrom_fieldBits 5 _ _ (by omega) d.isLt]
  simp [Got.bind]
theorem hclen (c : BitVec 4) : Statement (.hclen c) := by
  refine ⟨.hclen, fun rest => ?_⟩
  simp only [decode]
  rw [readUintFrom_fieldBits 4 _ _ (by omega) c.isLt]
  simp [Got.bind]
theorem cllen (v : BitVec 3) : Statement (.cllen v) := by
  refine ⟨.cllen, fun rest => ?_⟩
  simp only [decode, Config.clLenBits]
  rw [readUintFrom_fieldBits 3 _ _ (by omega) v.isLt]
  simp [Got.bind]
theorem len257 : Statement .len257 := ⟨rfl, rfl, by decide⟩
theorem len258 : Statement .len258 := ⟨rfl, rfl, by decide⟩
theorem len259 : Statement .len259 := ⟨rfl, rfl, by decide⟩
theorem len260 : Statement .len260 := ⟨rfl, rfl, by decide⟩
theorem len261 : Statement .len261 := ⟨rfl, rfl, by decide⟩
theorem len262 : Statement .len262 := ⟨rfl, rfl, by decide⟩
theorem len263 : Statement .len263 := ⟨rfl, rfl, by decide⟩
theorem len264 : Statement .len264 := ⟨rfl, rfl, by decide⟩
theorem len265 (x : BitVec 1) : Statement (.len265 x) := ⟨by simp [litlenInstr, lengthRows], rfl, x.isLt⟩
theorem len266 (x : BitVec 1) : Statement (.len266 x) := ⟨by simp [litlenInstr, lengthRows], rfl, x.isLt⟩
theorem len267 (x : BitVec 1) : Statement (.len267 x) := ⟨by simp [litlenInstr, lengthRows], rfl, x.isLt⟩
theorem len268 (x : BitVec 1) : Statement (.len268 x) := ⟨by simp [litlenInstr, lengthRows], rfl, x.isLt⟩
theorem len269 (x : BitVec 2) : Statement (.len269 x) := ⟨by simp [litlenInstr, lengthRows], rfl, x.isLt⟩
theorem len270 (x : BitVec 2) : Statement (.len270 x) := ⟨by simp [litlenInstr, lengthRows], rfl, x.isLt⟩
theorem len271 (x : BitVec 2) : Statement (.len271 x) := ⟨by simp [litlenInstr, lengthRows], rfl, x.isLt⟩
theorem len272 (x : BitVec 2) : Statement (.len272 x) := ⟨by simp [litlenInstr, lengthRows], rfl, x.isLt⟩
theorem len273 (x : BitVec 3) : Statement (.len273 x) := ⟨by simp [litlenInstr, lengthRows], rfl, x.isLt⟩
theorem len274 (x : BitVec 3) : Statement (.len274 x) := ⟨by simp [litlenInstr, lengthRows], rfl, x.isLt⟩
theorem len275 (x : BitVec 3) : Statement (.len275 x) := ⟨by simp [litlenInstr, lengthRows], rfl, x.isLt⟩
theorem len276 (x : BitVec 3) : Statement (.len276 x) := ⟨by simp [litlenInstr, lengthRows], rfl, x.isLt⟩
theorem len277 (x : BitVec 4) : Statement (.len277 x) := ⟨by simp [litlenInstr, lengthRows], rfl, x.isLt⟩
theorem len278 (x : BitVec 4) : Statement (.len278 x) := ⟨by simp [litlenInstr, lengthRows], rfl, x.isLt⟩
theorem len279 (x : BitVec 4) : Statement (.len279 x) := ⟨by simp [litlenInstr, lengthRows], rfl, x.isLt⟩
theorem len280 (x : BitVec 4) : Statement (.len280 x) := ⟨by simp [litlenInstr, lengthRows], rfl, x.isLt⟩
theorem len281 (x : BitVec 5) : Statement (.len281 x) := ⟨by simp [litlenInstr, lengthRows], rfl, x.isLt⟩
theorem len282 (x : BitVec 5) : Statement (.len282 x) := ⟨by simp [litlenInstr, lengthRows], rfl, x.isLt⟩
theorem len283 (x : BitVec 5) : Statement (.len283 x) := ⟨by simp [litlenInstr, lengthRows], rfl, x.isLt⟩
theorem len284 (x : BitVec 5) : Statement (.len284 x) := ⟨by simp [litlenInstr, lengthRows], rfl, x.isLt⟩
theorem len285 : Statement .len285 := ⟨rfl, rfl, by decide⟩
theorem len286Reserved : Statement .len286Reserved := ⟨rfl, rfl, by decide⟩
theorem len287Reserved : Statement .len287Reserved := ⟨rfl, rfl, by decide⟩
theorem dist0 : Statement .dist0 := ⟨rfl, rfl, by decide⟩
theorem dist1 : Statement .dist1 := ⟨rfl, rfl, by decide⟩
theorem dist2 : Statement .dist2 := ⟨rfl, rfl, by decide⟩
theorem dist3 : Statement .dist3 := ⟨rfl, rfl, by decide⟩
theorem dist4 (x : BitVec 1) : Statement (.dist4 x) := ⟨by simp [distInstr, distRows], rfl, x.isLt⟩
theorem dist5 (x : BitVec 1) : Statement (.dist5 x) := ⟨by simp [distInstr, distRows], rfl, x.isLt⟩
theorem dist6 (x : BitVec 2) : Statement (.dist6 x) := ⟨by simp [distInstr, distRows], rfl, x.isLt⟩
theorem dist7 (x : BitVec 2) : Statement (.dist7 x) := ⟨by simp [distInstr, distRows], rfl, x.isLt⟩
theorem dist8 (x : BitVec 3) : Statement (.dist8 x) := ⟨by simp [distInstr, distRows], rfl, x.isLt⟩
theorem dist9 (x : BitVec 3) : Statement (.dist9 x) := ⟨by simp [distInstr, distRows], rfl, x.isLt⟩
theorem dist10 (x : BitVec 4) : Statement (.dist10 x) := ⟨by simp [distInstr, distRows], rfl, x.isLt⟩
theorem dist11 (x : BitVec 4) : Statement (.dist11 x) := ⟨by simp [distInstr, distRows], rfl, x.isLt⟩
theorem dist12 (x : BitVec 5) : Statement (.dist12 x) := ⟨by simp [distInstr, distRows], rfl, x.isLt⟩
theorem dist13 (x : BitVec 5) : Statement (.dist13 x) := ⟨by simp [distInstr, distRows], rfl, x.isLt⟩
theorem dist14 (x : BitVec 6) : Statement (.dist14 x) := ⟨by simp [distInstr, distRows], rfl, x.isLt⟩
theorem dist15 (x : BitVec 6) : Statement (.dist15 x) := ⟨by simp [distInstr, distRows], rfl, x.isLt⟩
theorem dist16 (x : BitVec 7) : Statement (.dist16 x) := ⟨by simp [distInstr, distRows], rfl, x.isLt⟩
theorem dist17 (x : BitVec 7) : Statement (.dist17 x) := ⟨by simp [distInstr, distRows], rfl, x.isLt⟩
theorem dist18 (x : BitVec 8) : Statement (.dist18 x) := ⟨by simp [distInstr, distRows], rfl, x.isLt⟩
theorem dist19 (x : BitVec 8) : Statement (.dist19 x) := ⟨by simp [distInstr, distRows], rfl, x.isLt⟩
theorem dist20 (x : BitVec 9) : Statement (.dist20 x) := ⟨by simp [distInstr, distRows], rfl, x.isLt⟩
theorem dist21 (x : BitVec 9) : Statement (.dist21 x) := ⟨by simp [distInstr, distRows], rfl, x.isLt⟩
theorem dist22 (x : BitVec 10) : Statement (.dist22 x) := ⟨by simp [distInstr, distRows], rfl, x.isLt⟩
theorem dist23 (x : BitVec 10) : Statement (.dist23 x) := ⟨by simp [distInstr, distRows], rfl, x.isLt⟩
theorem dist24 (x : BitVec 11) : Statement (.dist24 x) := ⟨by simp [distInstr, distRows], rfl, x.isLt⟩
theorem dist25 (x : BitVec 11) : Statement (.dist25 x) := ⟨by simp [distInstr, distRows], rfl, x.isLt⟩
theorem dist26 (x : BitVec 12) : Statement (.dist26 x) := ⟨by simp [distInstr, distRows], rfl, x.isLt⟩
theorem dist27 (x : BitVec 12) : Statement (.dist27 x) := ⟨by simp [distInstr, distRows], rfl, x.isLt⟩
theorem dist28 (x : BitVec 13) : Statement (.dist28 x) := ⟨by simp [distInstr, distRows], rfl, x.isLt⟩
theorem dist29 (x : BitVec 13) : Statement (.dist29 x) := ⟨by simp [distInstr, distRows], rfl, x.isLt⟩
theorem dist30Reserved : Statement .dist30Reserved := ⟨rfl, rfl, by decide⟩
theorem dist31Reserved : Statement .dist31Reserved := ⟨rfl, rfl, by decide⟩
theorem cl0 : Statement .cl0 := ⟨rfl, rfl, by decide⟩
theorem cl1 : Statement .cl1 := ⟨rfl, rfl, by decide⟩
theorem cl2 : Statement .cl2 := ⟨rfl, rfl, by decide⟩
theorem cl3 : Statement .cl3 := ⟨rfl, rfl, by decide⟩
theorem cl4 : Statement .cl4 := ⟨rfl, rfl, by decide⟩
theorem cl5 : Statement .cl5 := ⟨rfl, rfl, by decide⟩
theorem cl6 : Statement .cl6 := ⟨rfl, rfl, by decide⟩
theorem cl7 : Statement .cl7 := ⟨rfl, rfl, by decide⟩
theorem cl8 : Statement .cl8 := ⟨rfl, rfl, by decide⟩
theorem cl9 : Statement .cl9 := ⟨rfl, rfl, by decide⟩
theorem cl10 : Statement .cl10 := ⟨rfl, rfl, by decide⟩
theorem cl11 : Statement .cl11 := ⟨rfl, rfl, by decide⟩
theorem cl12 : Statement .cl12 := ⟨rfl, rfl, by decide⟩
theorem cl13 : Statement .cl13 := ⟨rfl, rfl, by decide⟩
theorem cl14 : Statement .cl14 := ⟨rfl, rfl, by decide⟩
theorem cl15 : Statement .cl15 := ⟨rfl, rfl, by decide⟩
theorem cl16Repeat (x : BitVec 2) : Statement (.cl16Repeat x) := ⟨by simp [clInstr, clRows], rfl, x.isLt⟩
theorem cl17Zeros (x : BitVec 3) : Statement (.cl17Zeros x) := ⟨by simp [clInstr, clRows], rfl, x.isLt⟩
theorem cl18Zeros (x : BitVec 7) : Statement (.cl18Zeros x) := ⟨by simp [clInstr, clRows], rfl, x.isLt⟩
theorem lit00 : Statement .lit00 := ⟨rfl, rfl, by decide⟩
theorem lit01 : Statement .lit01 := ⟨rfl, rfl, by decide⟩
theorem lit02 : Statement .lit02 := ⟨rfl, rfl, by decide⟩
theorem lit03 : Statement .lit03 := ⟨rfl, rfl, by decide⟩
theorem lit04 : Statement .lit04 := ⟨rfl, rfl, by decide⟩
theorem lit05 : Statement .lit05 := ⟨rfl, rfl, by decide⟩
theorem lit06 : Statement .lit06 := ⟨rfl, rfl, by decide⟩
theorem lit07 : Statement .lit07 := ⟨rfl, rfl, by decide⟩
theorem lit08 : Statement .lit08 := ⟨rfl, rfl, by decide⟩
theorem lit09 : Statement .lit09 := ⟨rfl, rfl, by decide⟩
theorem lit0A : Statement .lit0A := ⟨rfl, rfl, by decide⟩
theorem lit0B : Statement .lit0B := ⟨rfl, rfl, by decide⟩
theorem lit0C : Statement .lit0C := ⟨rfl, rfl, by decide⟩
theorem lit0D : Statement .lit0D := ⟨rfl, rfl, by decide⟩
theorem lit0E : Statement .lit0E := ⟨rfl, rfl, by decide⟩
theorem lit0F : Statement .lit0F := ⟨rfl, rfl, by decide⟩
theorem lit10 : Statement .lit10 := ⟨rfl, rfl, by decide⟩
theorem lit11 : Statement .lit11 := ⟨rfl, rfl, by decide⟩
theorem lit12 : Statement .lit12 := ⟨rfl, rfl, by decide⟩
theorem lit13 : Statement .lit13 := ⟨rfl, rfl, by decide⟩
theorem lit14 : Statement .lit14 := ⟨rfl, rfl, by decide⟩
theorem lit15 : Statement .lit15 := ⟨rfl, rfl, by decide⟩
theorem lit16 : Statement .lit16 := ⟨rfl, rfl, by decide⟩
theorem lit17 : Statement .lit17 := ⟨rfl, rfl, by decide⟩
theorem lit18 : Statement .lit18 := ⟨rfl, rfl, by decide⟩
theorem lit19 : Statement .lit19 := ⟨rfl, rfl, by decide⟩
theorem lit1A : Statement .lit1A := ⟨rfl, rfl, by decide⟩
theorem lit1B : Statement .lit1B := ⟨rfl, rfl, by decide⟩
theorem lit1C : Statement .lit1C := ⟨rfl, rfl, by decide⟩
theorem lit1D : Statement .lit1D := ⟨rfl, rfl, by decide⟩
theorem lit1E : Statement .lit1E := ⟨rfl, rfl, by decide⟩
theorem lit1F : Statement .lit1F := ⟨rfl, rfl, by decide⟩
theorem lit20 : Statement .lit20 := ⟨rfl, rfl, by decide⟩
theorem lit21 : Statement .lit21 := ⟨rfl, rfl, by decide⟩
theorem lit22 : Statement .lit22 := ⟨rfl, rfl, by decide⟩
theorem lit23 : Statement .lit23 := ⟨rfl, rfl, by decide⟩
theorem lit24 : Statement .lit24 := ⟨rfl, rfl, by decide⟩
theorem lit25 : Statement .lit25 := ⟨rfl, rfl, by decide⟩
theorem lit26 : Statement .lit26 := ⟨rfl, rfl, by decide⟩
theorem lit27 : Statement .lit27 := ⟨rfl, rfl, by decide⟩
theorem lit28 : Statement .lit28 := ⟨rfl, rfl, by decide⟩
theorem lit29 : Statement .lit29 := ⟨rfl, rfl, by decide⟩
theorem lit2A : Statement .lit2A := ⟨rfl, rfl, by decide⟩
theorem lit2B : Statement .lit2B := ⟨rfl, rfl, by decide⟩
theorem lit2C : Statement .lit2C := ⟨rfl, rfl, by decide⟩
theorem lit2D : Statement .lit2D := ⟨rfl, rfl, by decide⟩
theorem lit2E : Statement .lit2E := ⟨rfl, rfl, by decide⟩
theorem lit2F : Statement .lit2F := ⟨rfl, rfl, by decide⟩
theorem lit30 : Statement .lit30 := ⟨rfl, rfl, by decide⟩
theorem lit31 : Statement .lit31 := ⟨rfl, rfl, by decide⟩
theorem lit32 : Statement .lit32 := ⟨rfl, rfl, by decide⟩
theorem lit33 : Statement .lit33 := ⟨rfl, rfl, by decide⟩
theorem lit34 : Statement .lit34 := ⟨rfl, rfl, by decide⟩
theorem lit35 : Statement .lit35 := ⟨rfl, rfl, by decide⟩
theorem lit36 : Statement .lit36 := ⟨rfl, rfl, by decide⟩
theorem lit37 : Statement .lit37 := ⟨rfl, rfl, by decide⟩
theorem lit38 : Statement .lit38 := ⟨rfl, rfl, by decide⟩
theorem lit39 : Statement .lit39 := ⟨rfl, rfl, by decide⟩
theorem lit3A : Statement .lit3A := ⟨rfl, rfl, by decide⟩
theorem lit3B : Statement .lit3B := ⟨rfl, rfl, by decide⟩
theorem lit3C : Statement .lit3C := ⟨rfl, rfl, by decide⟩
theorem lit3D : Statement .lit3D := ⟨rfl, rfl, by decide⟩
theorem lit3E : Statement .lit3E := ⟨rfl, rfl, by decide⟩
theorem lit3F : Statement .lit3F := ⟨rfl, rfl, by decide⟩
theorem lit40 : Statement .lit40 := ⟨rfl, rfl, by decide⟩
theorem lit41 : Statement .lit41 := ⟨rfl, rfl, by decide⟩
theorem lit42 : Statement .lit42 := ⟨rfl, rfl, by decide⟩
theorem lit43 : Statement .lit43 := ⟨rfl, rfl, by decide⟩
theorem lit44 : Statement .lit44 := ⟨rfl, rfl, by decide⟩
theorem lit45 : Statement .lit45 := ⟨rfl, rfl, by decide⟩
theorem lit46 : Statement .lit46 := ⟨rfl, rfl, by decide⟩
theorem lit47 : Statement .lit47 := ⟨rfl, rfl, by decide⟩
theorem lit48 : Statement .lit48 := ⟨rfl, rfl, by decide⟩
theorem lit49 : Statement .lit49 := ⟨rfl, rfl, by decide⟩
theorem lit4A : Statement .lit4A := ⟨rfl, rfl, by decide⟩
theorem lit4B : Statement .lit4B := ⟨rfl, rfl, by decide⟩
theorem lit4C : Statement .lit4C := ⟨rfl, rfl, by decide⟩
theorem lit4D : Statement .lit4D := ⟨rfl, rfl, by decide⟩
theorem lit4E : Statement .lit4E := ⟨rfl, rfl, by decide⟩
theorem lit4F : Statement .lit4F := ⟨rfl, rfl, by decide⟩
theorem lit50 : Statement .lit50 := ⟨rfl, rfl, by decide⟩
theorem lit51 : Statement .lit51 := ⟨rfl, rfl, by decide⟩
theorem lit52 : Statement .lit52 := ⟨rfl, rfl, by decide⟩
theorem lit53 : Statement .lit53 := ⟨rfl, rfl, by decide⟩
theorem lit54 : Statement .lit54 := ⟨rfl, rfl, by decide⟩
theorem lit55 : Statement .lit55 := ⟨rfl, rfl, by decide⟩
theorem lit56 : Statement .lit56 := ⟨rfl, rfl, by decide⟩
theorem lit57 : Statement .lit57 := ⟨rfl, rfl, by decide⟩
theorem lit58 : Statement .lit58 := ⟨rfl, rfl, by decide⟩
theorem lit59 : Statement .lit59 := ⟨rfl, rfl, by decide⟩
theorem lit5A : Statement .lit5A := ⟨rfl, rfl, by decide⟩
theorem lit5B : Statement .lit5B := ⟨rfl, rfl, by decide⟩
theorem lit5C : Statement .lit5C := ⟨rfl, rfl, by decide⟩
theorem lit5D : Statement .lit5D := ⟨rfl, rfl, by decide⟩
theorem lit5E : Statement .lit5E := ⟨rfl, rfl, by decide⟩
theorem lit5F : Statement .lit5F := ⟨rfl, rfl, by decide⟩
theorem lit60 : Statement .lit60 := ⟨rfl, rfl, by decide⟩
theorem lit61 : Statement .lit61 := ⟨rfl, rfl, by decide⟩
theorem lit62 : Statement .lit62 := ⟨rfl, rfl, by decide⟩
theorem lit63 : Statement .lit63 := ⟨rfl, rfl, by decide⟩
theorem lit64 : Statement .lit64 := ⟨rfl, rfl, by decide⟩
theorem lit65 : Statement .lit65 := ⟨rfl, rfl, by decide⟩
theorem lit66 : Statement .lit66 := ⟨rfl, rfl, by decide⟩
theorem lit67 : Statement .lit67 := ⟨rfl, rfl, by decide⟩
theorem lit68 : Statement .lit68 := ⟨rfl, rfl, by decide⟩
theorem lit69 : Statement .lit69 := ⟨rfl, rfl, by decide⟩
theorem lit6A : Statement .lit6A := ⟨rfl, rfl, by decide⟩
theorem lit6B : Statement .lit6B := ⟨rfl, rfl, by decide⟩
theorem lit6C : Statement .lit6C := ⟨rfl, rfl, by decide⟩
theorem lit6D : Statement .lit6D := ⟨rfl, rfl, by decide⟩
theorem lit6E : Statement .lit6E := ⟨rfl, rfl, by decide⟩
theorem lit6F : Statement .lit6F := ⟨rfl, rfl, by decide⟩
theorem lit70 : Statement .lit70 := ⟨rfl, rfl, by decide⟩
theorem lit71 : Statement .lit71 := ⟨rfl, rfl, by decide⟩
theorem lit72 : Statement .lit72 := ⟨rfl, rfl, by decide⟩
theorem lit73 : Statement .lit73 := ⟨rfl, rfl, by decide⟩
theorem lit74 : Statement .lit74 := ⟨rfl, rfl, by decide⟩
theorem lit75 : Statement .lit75 := ⟨rfl, rfl, by decide⟩
theorem lit76 : Statement .lit76 := ⟨rfl, rfl, by decide⟩
theorem lit77 : Statement .lit77 := ⟨rfl, rfl, by decide⟩
theorem lit78 : Statement .lit78 := ⟨rfl, rfl, by decide⟩
theorem lit79 : Statement .lit79 := ⟨rfl, rfl, by decide⟩
theorem lit7A : Statement .lit7A := ⟨rfl, rfl, by decide⟩
theorem lit7B : Statement .lit7B := ⟨rfl, rfl, by decide⟩
theorem lit7C : Statement .lit7C := ⟨rfl, rfl, by decide⟩
theorem lit7D : Statement .lit7D := ⟨rfl, rfl, by decide⟩
theorem lit7E : Statement .lit7E := ⟨rfl, rfl, by decide⟩
theorem lit7F : Statement .lit7F := ⟨rfl, rfl, by decide⟩
theorem lit80 : Statement .lit80 := ⟨rfl, rfl, by decide⟩
theorem lit81 : Statement .lit81 := ⟨rfl, rfl, by decide⟩
theorem lit82 : Statement .lit82 := ⟨rfl, rfl, by decide⟩
theorem lit83 : Statement .lit83 := ⟨rfl, rfl, by decide⟩
theorem lit84 : Statement .lit84 := ⟨rfl, rfl, by decide⟩
theorem lit85 : Statement .lit85 := ⟨rfl, rfl, by decide⟩
theorem lit86 : Statement .lit86 := ⟨rfl, rfl, by decide⟩
theorem lit87 : Statement .lit87 := ⟨rfl, rfl, by decide⟩
theorem lit88 : Statement .lit88 := ⟨rfl, rfl, by decide⟩
theorem lit89 : Statement .lit89 := ⟨rfl, rfl, by decide⟩
theorem lit8A : Statement .lit8A := ⟨rfl, rfl, by decide⟩
theorem lit8B : Statement .lit8B := ⟨rfl, rfl, by decide⟩
theorem lit8C : Statement .lit8C := ⟨rfl, rfl, by decide⟩
theorem lit8D : Statement .lit8D := ⟨rfl, rfl, by decide⟩
theorem lit8E : Statement .lit8E := ⟨rfl, rfl, by decide⟩
theorem lit8F : Statement .lit8F := ⟨rfl, rfl, by decide⟩
theorem lit90 : Statement .lit90 := ⟨rfl, rfl, by decide⟩
theorem lit91 : Statement .lit91 := ⟨rfl, rfl, by decide⟩
theorem lit92 : Statement .lit92 := ⟨rfl, rfl, by decide⟩
theorem lit93 : Statement .lit93 := ⟨rfl, rfl, by decide⟩
theorem lit94 : Statement .lit94 := ⟨rfl, rfl, by decide⟩
theorem lit95 : Statement .lit95 := ⟨rfl, rfl, by decide⟩
theorem lit96 : Statement .lit96 := ⟨rfl, rfl, by decide⟩
theorem lit97 : Statement .lit97 := ⟨rfl, rfl, by decide⟩
theorem lit98 : Statement .lit98 := ⟨rfl, rfl, by decide⟩
theorem lit99 : Statement .lit99 := ⟨rfl, rfl, by decide⟩
theorem lit9A : Statement .lit9A := ⟨rfl, rfl, by decide⟩
theorem lit9B : Statement .lit9B := ⟨rfl, rfl, by decide⟩
theorem lit9C : Statement .lit9C := ⟨rfl, rfl, by decide⟩
theorem lit9D : Statement .lit9D := ⟨rfl, rfl, by decide⟩
theorem lit9E : Statement .lit9E := ⟨rfl, rfl, by decide⟩
theorem lit9F : Statement .lit9F := ⟨rfl, rfl, by decide⟩
theorem litA0 : Statement .litA0 := ⟨rfl, rfl, by decide⟩
theorem litA1 : Statement .litA1 := ⟨rfl, rfl, by decide⟩
theorem litA2 : Statement .litA2 := ⟨rfl, rfl, by decide⟩
theorem litA3 : Statement .litA3 := ⟨rfl, rfl, by decide⟩
theorem litA4 : Statement .litA4 := ⟨rfl, rfl, by decide⟩
theorem litA5 : Statement .litA5 := ⟨rfl, rfl, by decide⟩
theorem litA6 : Statement .litA6 := ⟨rfl, rfl, by decide⟩
theorem litA7 : Statement .litA7 := ⟨rfl, rfl, by decide⟩
theorem litA8 : Statement .litA8 := ⟨rfl, rfl, by decide⟩
theorem litA9 : Statement .litA9 := ⟨rfl, rfl, by decide⟩
theorem litAA : Statement .litAA := ⟨rfl, rfl, by decide⟩
theorem litAB : Statement .litAB := ⟨rfl, rfl, by decide⟩
theorem litAC : Statement .litAC := ⟨rfl, rfl, by decide⟩
theorem litAD : Statement .litAD := ⟨rfl, rfl, by decide⟩
theorem litAE : Statement .litAE := ⟨rfl, rfl, by decide⟩
theorem litAF : Statement .litAF := ⟨rfl, rfl, by decide⟩
theorem litB0 : Statement .litB0 := ⟨rfl, rfl, by decide⟩
theorem litB1 : Statement .litB1 := ⟨rfl, rfl, by decide⟩
theorem litB2 : Statement .litB2 := ⟨rfl, rfl, by decide⟩
theorem litB3 : Statement .litB3 := ⟨rfl, rfl, by decide⟩
theorem litB4 : Statement .litB4 := ⟨rfl, rfl, by decide⟩
theorem litB5 : Statement .litB5 := ⟨rfl, rfl, by decide⟩
theorem litB6 : Statement .litB6 := ⟨rfl, rfl, by decide⟩
theorem litB7 : Statement .litB7 := ⟨rfl, rfl, by decide⟩
theorem litB8 : Statement .litB8 := ⟨rfl, rfl, by decide⟩
theorem litB9 : Statement .litB9 := ⟨rfl, rfl, by decide⟩
theorem litBA : Statement .litBA := ⟨rfl, rfl, by decide⟩
theorem litBB : Statement .litBB := ⟨rfl, rfl, by decide⟩
theorem litBC : Statement .litBC := ⟨rfl, rfl, by decide⟩
theorem litBD : Statement .litBD := ⟨rfl, rfl, by decide⟩
theorem litBE : Statement .litBE := ⟨rfl, rfl, by decide⟩
theorem litBF : Statement .litBF := ⟨rfl, rfl, by decide⟩
theorem litC0 : Statement .litC0 := ⟨rfl, rfl, by decide⟩
theorem litC1 : Statement .litC1 := ⟨rfl, rfl, by decide⟩
theorem litC2 : Statement .litC2 := ⟨rfl, rfl, by decide⟩
theorem litC3 : Statement .litC3 := ⟨rfl, rfl, by decide⟩
theorem litC4 : Statement .litC4 := ⟨rfl, rfl, by decide⟩
theorem litC5 : Statement .litC5 := ⟨rfl, rfl, by decide⟩
theorem litC6 : Statement .litC6 := ⟨rfl, rfl, by decide⟩
theorem litC7 : Statement .litC7 := ⟨rfl, rfl, by decide⟩
theorem litC8 : Statement .litC8 := ⟨rfl, rfl, by decide⟩
theorem litC9 : Statement .litC9 := ⟨rfl, rfl, by decide⟩
theorem litCA : Statement .litCA := ⟨rfl, rfl, by decide⟩
theorem litCB : Statement .litCB := ⟨rfl, rfl, by decide⟩
theorem litCC : Statement .litCC := ⟨rfl, rfl, by decide⟩
theorem litCD : Statement .litCD := ⟨rfl, rfl, by decide⟩
theorem litCE : Statement .litCE := ⟨rfl, rfl, by decide⟩
theorem litCF : Statement .litCF := ⟨rfl, rfl, by decide⟩
theorem litD0 : Statement .litD0 := ⟨rfl, rfl, by decide⟩
theorem litD1 : Statement .litD1 := ⟨rfl, rfl, by decide⟩
theorem litD2 : Statement .litD2 := ⟨rfl, rfl, by decide⟩
theorem litD3 : Statement .litD3 := ⟨rfl, rfl, by decide⟩
theorem litD4 : Statement .litD4 := ⟨rfl, rfl, by decide⟩
theorem litD5 : Statement .litD5 := ⟨rfl, rfl, by decide⟩
theorem litD6 : Statement .litD6 := ⟨rfl, rfl, by decide⟩
theorem litD7 : Statement .litD7 := ⟨rfl, rfl, by decide⟩
theorem litD8 : Statement .litD8 := ⟨rfl, rfl, by decide⟩
theorem litD9 : Statement .litD9 := ⟨rfl, rfl, by decide⟩
theorem litDA : Statement .litDA := ⟨rfl, rfl, by decide⟩
theorem litDB : Statement .litDB := ⟨rfl, rfl, by decide⟩
theorem litDC : Statement .litDC := ⟨rfl, rfl, by decide⟩
theorem litDD : Statement .litDD := ⟨rfl, rfl, by decide⟩
theorem litDE : Statement .litDE := ⟨rfl, rfl, by decide⟩
theorem litDF : Statement .litDF := ⟨rfl, rfl, by decide⟩
theorem litE0 : Statement .litE0 := ⟨rfl, rfl, by decide⟩
theorem litE1 : Statement .litE1 := ⟨rfl, rfl, by decide⟩
theorem litE2 : Statement .litE2 := ⟨rfl, rfl, by decide⟩
theorem litE3 : Statement .litE3 := ⟨rfl, rfl, by decide⟩
theorem litE4 : Statement .litE4 := ⟨rfl, rfl, by decide⟩
theorem litE5 : Statement .litE5 := ⟨rfl, rfl, by decide⟩
theorem litE6 : Statement .litE6 := ⟨rfl, rfl, by decide⟩
theorem litE7 : Statement .litE7 := ⟨rfl, rfl, by decide⟩
theorem litE8 : Statement .litE8 := ⟨rfl, rfl, by decide⟩
theorem litE9 : Statement .litE9 := ⟨rfl, rfl, by decide⟩
theorem litEA : Statement .litEA := ⟨rfl, rfl, by decide⟩
theorem litEB : Statement .litEB := ⟨rfl, rfl, by decide⟩
theorem litEC : Statement .litEC := ⟨rfl, rfl, by decide⟩
theorem litED : Statement .litED := ⟨rfl, rfl, by decide⟩
theorem litEE : Statement .litEE := ⟨rfl, rfl, by decide⟩
theorem litEF : Statement .litEF := ⟨rfl, rfl, by decide⟩
theorem litF0 : Statement .litF0 := ⟨rfl, rfl, by decide⟩
theorem litF1 : Statement .litF1 := ⟨rfl, rfl, by decide⟩
theorem litF2 : Statement .litF2 := ⟨rfl, rfl, by decide⟩
theorem litF3 : Statement .litF3 := ⟨rfl, rfl, by decide⟩
theorem litF4 : Statement .litF4 := ⟨rfl, rfl, by decide⟩
theorem litF5 : Statement .litF5 := ⟨rfl, rfl, by decide⟩
theorem litF6 : Statement .litF6 := ⟨rfl, rfl, by decide⟩
theorem litF7 : Statement .litF7 := ⟨rfl, rfl, by decide⟩
theorem litF8 : Statement .litF8 := ⟨rfl, rfl, by decide⟩
theorem litF9 : Statement .litF9 := ⟨rfl, rfl, by decide⟩
theorem litFA : Statement .litFA := ⟨rfl, rfl, by decide⟩
theorem litFB : Statement .litFB := ⟨rfl, rfl, by decide⟩
theorem litFC : Statement .litFC := ⟨rfl, rfl, by decide⟩
theorem litFD : Statement .litFD := ⟨rfl, rfl, by decide⟩
theorem litFE : Statement .litFE := ⟨rfl, rfl, by decide⟩
theorem litFF : Statement .litFF := ⟨rfl, rfl, by decide⟩
theorem eob : Statement .eob := ⟨rfl, rfl, by decide⟩

end Sys2Proof.Laws.Forms
end

