-- ==== Sys2Proof/Laws/Reader.lean ====
section
/-!
SUPPORT. The bit reader delivers the stream: `readBitOrEnd` against `bitsAhead` and `consume`, and the decoder over the bit
reader against the decoder over the list of bits ahead.
-/

namespace Sys2Proof.Machine

/-! ### Bits and bytes -/

@[simp] theorem fieldBits_length (n x : Nat) : (fieldBits n x).length = n := by
  induction n generalizing x with
  | zero => rfl
  | succ n ih => simp [fieldBits, ih]

theorem fieldBits_getElem? (n x i : Nat) : (fieldBits n x)[i]? = if i < n then some (x.testBit i) else none := by
  induction n generalizing x i with
  | zero => simp [fieldBits]
  | succ n ih =>
    cases i with
    | zero => simp [fieldBits, Nat.testBit_zero]
    | succ i => simp [fieldBits, ih, Nat.testBit_succ]

theorem fieldBits_drop_cons {n x i : Nat} (h : i < n) :
    (fieldBits n x).drop i = x.testBit i :: (fieldBits n x).drop (i + 1) := by
  have hx : (fieldBits n x)[i]'(by simp [h]) = x.testBit i := by
    have := fieldBits_getElem? n x i
    rw [if_pos h, List.getElem?_eq_getElem (by simp [h])] at this
    exact Option.some.inj this
  rw [List.drop_eq_getElem_cons (by simp [h]), hx]

@[simp] theorem bytesToBits_length (bs : List Byte) : (bytesToBits bs).length = 8 * bs.length := by
  induction bs with
  | nil => rfl
  | cons b bs ih => simp [bytesToBits, ih]; omega

theorem bytesToBits_append (as bs : List Byte) : bytesToBits (as ++ bs) = bytesToBits as ++ bytesToBits bs := by
  induction as with
  | nil => rfl
  | cons a as ih => simp [bytesToBits, ih]

/-! ### The cursor -/

theorem ReaderOk.rem_le {s : State} (h : ReaderOk s) : s.br.rem.toNat ≤ 8 * s.src.pos := by
  by_cases hr : s.br.rem = 0
  · simp [hr]
  · have := (h.cur_last hr).1
    have := s.br.rem.isLt
    omega

theorem bitsAhead_length {s : State} (h : ReaderOk s) (he : s.br.eos = false) :
    (bitsAhead s).length = 8 * s.src.bytes.length - bitpos s := by
  have h1 := h.rem_le
  have h2 := h.pos_le
  have h3 := s.br.rem.isLt
  simp only [bitsAhead, he, bitpos, Bool.false_eq_true, if_false, List.length_append, List.length_drop, fieldBits_length,
    bytesToBits_length]
  omega

/-! ### One bit -/

theorem readBitOrEnd_eos {s : State} (he : s.br.eos = true) : readBitOrEnd s = (none, s) := by
  simp [readBitOrEnd, he]

theorem readBitOrEnd_nil {s : State} (h : ReaderOk s) (he : s.br.eos = false) (hb : bitsAhead s = []) :
    readBitOrEnd s = (none, { s with br.eos := true }) := by
  have hl := bitsAhead_length h he
  have h3 := s.br.rem.isLt
  have h1 := h.rem_le
  have h2 := h.pos_le
  rw [hb] at hl
  simp only [List.length_nil, bitpos] at hl
  have hr : s.br.rem = 0 := BitVec.eq_of_toNat_eq (by simp; omega)
  have hp : s.src.bytes[s.src.pos]? = none := by rw [List.getElem?_eq_none_iff]; omega
  simp [readBitOrEnd, he, hr, srcNext, hp]

theorem readBitOrEnd_cons {s : State} (h : ReaderOk s) (he : s.br.eos = false) {b : Bool} {rest : List Bool}
    (hb : bitsAhead s = b :: rest) :
    readBitOrEnd s = (some b, consume 1 s) ∧ bitsAhead (consume 1 s) = rest ∧ ReaderOk (consume 1 s) := by
  have h3 := s.br.rem.isLt
  by_cases hr : s.br.rem = 0
  · have hr0 : s.br.rem.toNat = 0 := by simp [hr]
    have hnil : (fieldBits 8 s.br.cur.toNat).drop 8 = [] := by simp
    simp only [bitsAhead, he, hr0, Nat.sub_zero, hnil, List.nil_append, Bool.false_eq_true, if_false] at hb
    cases hd : s.src.bytes.drop s.src.pos with
    | nil => rw [hd] at hb; simp [bytesToBits] at hb
    | cons x xs =>
      have hlt : s.src.pos < s.src.bytes.length := by
        have := congrArg List.length hd
        simp at this; omega
      have hsplit := hd
      rw [List.drop_eq_getElem_cons hlt] at hsplit
      injection hsplit with hx hxs
      replace hx : s.src.bytes[s.src.pos]? = some x := by rw [List.getElem?_eq_getElem hlt, hx]
      rw [hd] at hb
      have hf := fieldBits_drop_cons (n := 8) (x := x.toNat) (i := 0) (by omega)
      rw [List.drop_zero] at hf
      rw [bytesToBits, hf] at hb
      simp only [List.cons_append, List.cons.injEq] at hb
      have hc : consume 1 s = { s with src.pos := s.src.pos + 1, br.rem := 7, br.cur := x } := by
        have e1 : (bitpos s + 1 + 7) / 8 = s.src.pos + 1 := by simp only [bitpos]; omega
        have e2 : (8 - (bitpos s + 1) % 8) % 8 = 7 := by simp only [bitpos]; omega
        simp [consume, e1, e2, hx]
      refine ⟨?_, ?_, ?_⟩
      · rw [hc]; simp [readBitOrEnd, he, hr, srcNext, hx, ← hb.1, BitVec.getLsbD]
      · rw [hc]; rw [← hb.2]; simp [bitsAhead, he, hxs]
      · rw [hc]
        exact ⟨by simp; omega, by simp [hx], by simp [he]⟩
  · obtain ⟨hp, hcur⟩ := h.cur_last hr
    have hrn : s.br.rem.toNat ≠ 0 := fun h0 => hr (BitVec.eq_of_toNat_eq (by simpa using h0))
    simp only [bitsAhead, he, Bool.false_eq_true, if_false] at hb
    rw [fieldBits_drop_cons (by omega)] at hb
    simp only [List.cons_append, List.cons.injEq] at hb
    have hc : consume 1 s = { s with br.rem := s.br.rem - 1 } := by
      have e1 : (bitpos s + 1 + 7) / 8 = s.src.pos := by simp only [bitpos]; omega
      have e2 : BitVec.ofNat 3 ((8 - (bitpos s + 1) % 8) % 8) = s.br.rem - 1 := by
        apply BitVec.eq_of_toNat_eq
        have : (8 - (bitpos s + 1) % 8) % 8 = s.br.rem.toNat - 1 := by simp only [bitpos]; omega
        rw [this]; simp [BitVec.toNat_sub]; omega
      simp [consume, e1, e2, hcur]
    have hsub : (s.br.rem - 1).toNat = s.br.rem.toNat - 1 := by simp [BitVec.toNat_sub]; omega
    refine ⟨?_, ?_, ?_⟩
    · rw [hc, readBitOrEnd, he, if_neg (by decide), if_neg hr, ← hb.1]; rfl
    · rw [hc]; simp only [bitsAhead, he, Bool.false_eq_true, if_false, hsub, ← hb.2]
      congr 2; omega
    · rw [hc]; exact ⟨h.pos_le, fun _ => ⟨hp, hcur⟩, by simp [he]⟩

/-! ### Many bits -/

theorem bitpos_consume {s : State} (h : ReaderOk s) (k : Nat) : bitpos (consume k s) = bitpos s + k := by
  have h1 := h.rem_le
  have h3 := s.br.rem.isLt
  by_cases hk : k = 0
  · subst hk; simp [consume_zero]
  · simp only [consume, hk, if_false]
    simp only [bitpos, BitVec.toNat_ofNat]
    omega

theorem consume_consume {s : State} (h : ReaderOk s) (k j : Nat) : consume j (consume k s) = consume (k + j) s := by
  by_cases hk : k = 0
  · subst hk; simp [consume_zero]
  by_cases hj : j = 0
  · subst hj; simp [consume_zero]
  have hp := bitpos_consume h k
  have hkj : k + j ≠ 0 := by omega
  simp only [consume, hk, hj, hkj, if_false] at hp ⊢
  rw [hp]
  simp [Nat.add_assoc]

/-- After `k` bits the reader stands `k` bits further in the same stream. -/
theorem consume_spec {s : State} (h : ReaderOk s) (he : s.br.eos = false) :
    ∀ k, k ≤ (bitsAhead s).length → ReaderOk (consume k s) ∧ bitsAhead (consume k s) = (bitsAhead s).drop k := by
  intro k
  induction k with
  | zero => intro _; simp [consume_zero, h]
  | succ k ih =>
    intro hk
    obtain ⟨hr, hb⟩ := ih (by omega)
    rw [List.drop_eq_getElem_cons (by omega)] at hb
    obtain ⟨-, hb', hr'⟩ := readBitOrEnd_cons hr (by simpa using he) hb
    rw [consume_consume h] at hb' hr'
    exact ⟨hr', hb'⟩

/-- The reader has come `k` bits further from where it stood in `s₀`, over the list of the bits ahead there. -/
def Tracks (s₀ s : State) (bits : List Bool) : Prop :=
  ∃ k, k ≤ (bitsAhead s₀).length ∧ s = consume k s₀ ∧ bits = (bitsAhead s₀).drop k

/-- The reader has found the end of the stream. -/
def AtEnd (s₀ s : State) (bits : List Bool) : Prop :=
  s = { consume (bitsAhead s₀).length s₀ with br.eos := true } ∧ bits = []

/-- Two readings of the same bits give the same answer, with sources related by `R`, or by `E` where the bits ran out. -/
def GotRel {σ τ α : Type} (R E : σ → τ → Prop) (g : Got σ α) (g' : Got τ α) : Prop :=
  match g, g' with
  | .ok a s, .ok b t => a = b ∧ R s t
  | .stop r s, .stop q t => r = q ∧ ((∃ p, r = .unexpectedEnd p) ∧ E s t ∨ (∀ p, r ≠ .unexpectedEnd p) ∧ R s t)
  | _, _ => False

theorem GotRel.bind {σ τ α β : Type} {R E : σ → τ → Prop} {g : Got σ α} {g' : Got τ α} {f : α → σ → Got σ β}
    {f' : α → τ → Got τ β} (h : GotRel R E g g') (hf : ∀ a s t, R s t → GotRel R E (f a s) (f' a t)) :
    GotRel R E (g.bind f) (g'.bind f') := by
  cases g <;> cases g' <;> simp only [GotRel] at h
  · obtain ⟨rfl, h⟩ := h; exact hf _ _ _ h
  · exact h

theorem GotRel.noting {σ τ α : Type} {R E : σ → τ → Prop} {g : Got σ α} {g' : Got τ α} (p : Partial)
    (h : GotRel R E g g') : GotRel R E (g.noting p) (g'.noting p) := by
  cases g <;> cases g' <;> simp only [GotRel] at h
  · exact h
  · obtain ⟨rfl, h⟩ := h
    rename_i r s t
    cases r <;> simp_all [Got.noting, GotRel]

section Simulation
variable {σ τ : Type} {A : BitSource σ} {B : BitSource τ} {R E : σ → τ → Prop}
  (hnext : ∀ s t, R s t → (∃ b s' t', A.next s = (some b, s') ∧ B.next t = (some b, t') ∧ R s' t') ∨
    (∃ s' t', A.next s = (none, s') ∧ B.next t = (none, t') ∧ E s' t'))
include hnext

theorem readBits_rel (n : Nat) : ∀ s t, R s t → GotRel R E (readBits A n s) (readBits B n t) := by
  induction n with
  | zero => intro s t h; exact ⟨rfl, h⟩
  | succ n ih =>
    intro s t h
    simp only [readBits]
    rcases hnext s t h with ⟨b, s', t', ha, hb, h'⟩ | ⟨s', t', ha, hb, h'⟩ <;> rw [ha, hb]
    · exact (ih _ _ h').bind fun _ _ _ h => ⟨rfl, h⟩
    · exact ⟨rfl, .inl ⟨⟨_, rfl⟩, h'⟩⟩

theorem readUintFrom_rel (n : Nat) (s : σ) (t : τ) (h : R s t) :
    GotRel R E (readUintFrom A n s) (readUintFrom B n t) := by
  unfold readUintFrom
  split
  · exact ⟨rfl, .inr ⟨by simp, h⟩⟩
  · exact readBits_rel hnext n s t h

theorem readU16From_rel (s : σ) (t : τ) (h : R s t) : GotRel R E (readU16From A s) (readU16From B t) :=
  (readUintFrom_rel hnext 8 s t h).bind fun _ _ _ h => (readUintFrom_rel hnext 8 _ _ h).bind fun _ _ _ h => ⟨rfl, h⟩

theorem decodeLoop_rel (code : Code) (k : Nat) :
    ∀ key s t, R s t → GotRel R E (decodeLoop A code k key s) (decodeLoop B code k key t) := by
  induction k with
  | zero => intro key s t h; exact ⟨rfl, .inr ⟨by simp, h⟩⟩
  | succ k ih =>
    intro key s t h
    refine (readUintFrom_rel hnext 1 s t h).bind fun bit s t h => ?_
    split
    · exact ⟨rfl, h⟩
    · exact ih _ _ _ h

theorem decodeElement_rel (code : Code) (width : Nat → Nat) (instr : Nat → Nat → Option Instr) (s : σ) (t : τ) (h : R s t) :
    GotRel R E (decodeElement A code width instr s) (decodeElement B code width instr t) := by
  refine (decodeLoop_rel hnext code _ _ s t h).bind fun sym s t h => ?_
  refine (readUintFrom_rel hnext _ s t h).bind fun x s t h => ?_
  unfold orValueRange
  split
  · exact ⟨rfl, h⟩
  · exact ⟨rfl, .inr ⟨by simp, h⟩⟩

/-- The decoder answers alike on two sources that deliver the same bits. -/
theorem decode_rel (c : Ctx) (s : σ) (t : τ) (h : R s t) : GotRel R E (decode A c s) (decode B c t) := by
  have field : ∀ {n : Nat} {f : Nat → Instr}, GotRel R E ((readUintFrom A n s).bind fun v s => .ok (f v) s)
      ((readUintFrom B n t).bind fun v s => .ok (f v) s) :=
    (readUintFrom_rel hnext _ s t h).bind fun _ _ _ h => ⟨rfl, h⟩
  cases c with
  | header =>
    exact (readUintFrom_rel hnext 1 s t h).bind fun _ _ _ h =>
      ((readUintFrom_rel hnext 2 _ _ h).noting _).bind fun _ _ _ h => ⟨rfl, h⟩
  | dispatch f t => exact ⟨rfl, h⟩
  | storedLen =>
    exact (readU16From_rel hnext s t h).bind fun _ _ _ h =>
      ((readU16From_rel hnext _ _ h).noting _).bind fun _ _ _ h => ⟨rfl, h⟩
  | hlit => exact field
  | hdist => exact field
  | hclen => exact field
  | cllen => exact field
  | clsym code first => exact decodeElement_rel hnext code _ _ s t h
  | litlen code => exact decodeElement_rel hnext code _ _ s t h
  | dist code => exact decodeElement_rel hnext code _ _ s t h

end Simulation

theorem Tracks.start (s : State) : Tracks s s (bitsAhead s) := ⟨0, by omega, rfl, by simp⟩

theorem Tracks.next {s₀ : State} (h : ReaderOk s₀) (he : s₀.br.eos = false) (s : State) (bits : List Bool)
    (ht : Tracks s₀ s bits) :
    (∃ b s' bits', bitReader.next s = (some b, s') ∧ listBits.next bits = (some b, bits') ∧ Tracks s₀ s' bits') ∨
    (∃ s' bits', bitReader.next s = (none, s') ∧ listBits.next bits = (none, bits') ∧ AtEnd s₀ s' bits') := by
  obtain ⟨k, hk, rfl, rfl⟩ := ht
  obtain ⟨hr, hb⟩ := consume_spec h he k hk
  have he' : (consume k s₀).br.eos = false := by simpa using he
  rcases Nat.lt_or_ge k (bitsAhead s₀).length with hlt | hge
  · rw [List.drop_eq_getElem_cons hlt] at hb ⊢
    obtain ⟨h1, -, -⟩ := readBitOrEnd_cons hr he' hb
    rw [consume_consume h] at h1
    exact .inl ⟨_, _, _, h1, rfl, k + 1, hlt, rfl, rfl⟩
  · have hkl : k = (bitsAhead s₀).length := by omega
    subst hkl
    rw [List.drop_length] at hb ⊢
    exact .inr ⟨_, _, readBitOrEnd_nil hr he' hb, rfl, rfl, rfl⟩

/-- The machine's decoder answers what the decoder reads from the list of bits ahead, and its reader tracks that list. -/
theorem decode_bitReader {s : State} (h : ReaderOk s) (he : s.br.eos = false) (c : Ctx) :
    GotRel (Tracks s) (AtEnd s) (decode bitReader c s) (decode listBits c (bitsAhead s)) :=
  decode_rel (fun _ _ ht => ht.next h he) c s _ (.start s)

theorem readUint_bitReader {s : State} (h : ReaderOk s) (he : s.br.eos = false) (n : Nat) :
    GotRel (Tracks s) (AtEnd s) (readUint n s) (readUintFrom listBits n (bitsAhead s)) :=
  readUintFrom_rel (fun _ _ ht => ht.next h he) n s _ (.start s)

/-! ### What reading leaves alone, from any state -/

/-- What is left of the source after a read. -/
def Got.state {σ α : Type} : Got σ α → σ
  | .ok _ s => s
  | .stop _ s => s

/-- A property that every bit read keeps is kept by the decoder. -/
theorem decode_keeps {σ : Type} (A : BitSource σ) (P : σ → Prop) (hP : ∀ s, P s → P (A.next s).2) (c : Ctx) (s : σ)
    (h : P s) : P (Got.state (decode A c s)) := by
  have hrel := decode_rel (A := A) (B := A) (R := fun s t => s = t ∧ P s) (E := fun s t => s = t ∧ P s)
    (fun s t ⟨hst, hs⟩ => by
      subst hst
      have := hP s hs
      rcases hn : A.next s with ⟨_ | b, s'⟩ <;> rw [hn] at this
      · exact .inr ⟨_, _, rfl, rfl, rfl, this⟩
      · exact .inl ⟨_, _, _, rfl, rfl, rfl, this⟩) c s s ⟨rfl, h⟩
  cases hd : decode A c s <;> rw [hd] at hrel
  · exact hrel.2.2
  · rcases hrel.2 with h | h
    · exact h.2.2
    · exact h.2.2

theorem readUintFrom_keeps {σ : Type} (A : BitSource σ) (P : σ → Prop) (hP : ∀ s, P s → P (A.next s).2) (n : Nat) (s : σ)
    (h : P s) : P (Got.state (readUintFrom A n s)) := by
  have hbits : ∀ n s, P s → P (Got.state (readBits A n s)) := by
    intro n
    induction n with
    | zero => intro s h; exact h
    | succ n ih =>
      intro s h
      have h' := hP s h
      simp only [readBits]
      rcases hn : A.next s with ⟨_ | b, s'⟩ <;> rw [hn] at h'
      · exact h'
      · have := ih s' h'
        show P (Got.state ((readBits A n s').bind _))
        cases hr : readBits A n s' <;> rw [hr] at this <;> exact this
  unfold readUintFrom
  split
  · exact h
  · exact hbits n s h

/-- What no reading of bits changes: the history buffer, the block decoder, the output, the bytes of the source; the source
never goes back. -/
structure ReadsFrom (s₀ s : State) : Prop where
  hb : s.hb = s₀.hb
  bd : s.bd = s₀.bd
  out : s.out = s₀.out
  bytes : s.src.bytes = s₀.src.bytes
  pos : s₀.src.pos ≤ s.src.pos

theorem ReadsFrom.refl (s : State) : ReadsFrom s s := ⟨rfl, rfl, rfl, rfl, Nat.le_refl _⟩

theorem ReadsFrom.next {s₀ : State} (s : State) (h : ReadsFrom s₀ s) : ReadsFrom s₀ (bitReader.next s).2 := by
  obtain ⟨h1, h2, h3, h4, h5⟩ := h
  simp only [bitReader, readBitOrEnd, srcNext]
  split
  · exact ⟨h1, h2, h3, h4, h5⟩
  · split
    · cases s.src.bytes[s.src.pos]?
      · exact ⟨h1, h2, h3, h4, h5⟩
      · exact ⟨h1, h2, h3, h4, Nat.le_succ_of_le h5⟩
    · exact ⟨h1, h2, h3, h4, h5⟩

theorem fetch_readsFrom (s : State) : ReadsFrom s (Got.state (fetch s)) :=
  decode_keeps bitReader (ReadsFrom s) (fun _ h => h.next) (ctxOf s) s (.refl s)

theorem readUint_readsFrom (n : Nat) (s : State) : ReadsFrom s (Got.state (readUint n s)) :=
  readUintFrom_keeps bitReader (ReadsFrom s) (fun _ h => h.next) n s (.refl s)

end Sys2Proof.Machine
end

