-- ==== Sys2Proof/Laws/Meanings.lean ====
section
/-!
SUPPORT. What `exec` answers on the symbols of each alphabet, said once; and, for each shared operation of the meanings,
everything it can do.
-/

namespace Sys2Proof.Machine

/-! ### The arms of `exec`, alphabet by alphabet -/

/-- The meaning of a literal/length symbol (45_huffman_body.md R241 to R247). -/
def litlenMeaning (sym x : Nat) (s : State) : Host.Outcome State Fault Refusal :=
  if sym < 256 then literal (BitVec.ofNat 8 sym) s
  else if sym = 256 then .next (endOfBlock s)
  else if sym ≤ 285 then lengthSymbol (lengthBase sym + x) s
  else reservedLength s

/-- The meaning of a distance symbol (45_huffman_body.md R249 to R253). -/
def distMeaning (sym x : Nat) (s : State) : Host.Outcome State Fault Refusal :=
  if sym ≤ 29 then distanceSymbol (distBase sym + x) s else reservedDistance s

/-- The meaning of a code-length symbol (44_dynamic_header.md R215 to R219). -/
def clMeaning (sym x : Nat) (s : State) : Host.Outcome State Fault Refusal :=
  if sym ≤ 15 then codeLengthRun 1 (BitVec.ofNat 4 sym) s
  else if sym = 16 then
    if s.bd.idx = 0 then .next (raise .repeatWithoutPrevious 0 s) else codeLengthRun (x + 3) (previousLength s) s
  else if sym = 17 then codeLengthRun (x + 3) 0 s
  else codeLengthRun (x + 11) 0 s

/-- Every arm of `exec`, by the element's form. -/
theorem exec_eq (i : Instr) (s : State) :
    exec i s = match formOf i with
      | .symbol .litlen sym _ x => litlenMeaning sym x s
      | .symbol .dist sym _ x => distMeaning sym x s
      | .symbol .clsym sym _ x => clMeaning sym x s
      | _ => exec i s := by
  cases i <;> rfl

theorem exec_litlen {i : Instr} {sym n x : Nat} (h : formOf i = .symbol .litlen sym n x) (s : State) :
    exec i s = litlenMeaning sym x s := by
  rw [exec_eq, h]

theorem exec_dist {i : Instr} {sym n x : Nat} (h : formOf i = .symbol .dist sym n x) (s : State) :
    exec i s = distMeaning sym x s := by
  rw [exec_eq, h]

theorem exec_clsym {i : Instr} {sym n x : Nat} (h : formOf i = .symbol .clsym sym n x) (s : State) :
    exec i s = clMeaning sym x s := by
  rw [exec_eq, h]

open Laws.Forms in
/-- The family `Forms` for every element. -/
theorem forms (i : Instr) : Laws.Forms.Statement i :=
  @Instr.rec Laws.Forms.Statement
    btype0Stored btype1Fixed btype2Dynamic btype3Reserved hdr storedLenNlen hlit hdist hclen cllen len257 len258
    len259 len260 len261 len262 len263 len264 len265 len266 len267 len268 len269 len270 len271 len272 len273 len274
    len275 len276 len277 len278 len279 len280 len281 len282 len283 len284 len285 len286Reserved len287Reserved dist0
    dist1 dist2 dist3 dist4 dist5 dist6 dist7 dist8 dist9 dist10 dist11 dist12 dist13 dist14 dist15 dist16 dist17
    dist18 dist19 dist20 dist21 dist22 dist23 dist24 dist25 dist26 dist27 dist28 dist29 dist30Reserved
    dist31Reserved cl0 cl1 cl2 cl3 cl4 cl5 cl6 cl7 cl8 cl9 cl10 cl11 cl12 cl13 cl14 cl15 cl16Repeat cl17Zeros
    cl18Zeros lit00 lit01 lit02 lit03 lit04 lit05 lit06 lit07 lit08 lit09 lit0A lit0B lit0C lit0D lit0E lit0F lit10
    lit11 lit12 lit13 lit14 lit15 lit16 lit17 lit18 lit19 lit1A lit1B lit1C lit1D lit1E lit1F lit20 lit21 lit22
    lit23 lit24 lit25 lit26 lit27 lit28 lit29 lit2A lit2B lit2C lit2D lit2E lit2F lit30 lit31 lit32 lit33 lit34
    lit35 lit36 lit37 lit38 lit39 lit3A lit3B lit3C lit3D lit3E lit3F lit40 lit41 lit42 lit43 lit44 lit45 lit46
    lit47 lit48 lit49 lit4A lit4B lit4C lit4D lit4E lit4F lit50 lit51 lit52 lit53 lit54 lit55 lit56 lit57 lit58
    lit59 lit5A lit5B lit5C lit5D lit5E lit5F lit60 lit61 lit62 lit63 lit64 lit65 lit66 lit67 lit68 lit69 lit6A
    lit6B lit6C lit6D lit6E lit6F lit70 lit71 lit72 lit73 lit74 lit75 lit76 lit77 lit78 lit79 lit7A lit7B lit7C
    lit7D lit7E lit7F lit80 lit81 lit82 lit83 lit84 lit85 lit86 lit87 lit88 lit89 lit8A lit8B lit8C lit8D lit8E
    lit8F lit90 lit91 lit92 lit93 lit94 lit95 lit96 lit97 lit98 lit99 lit9A lit9B lit9C lit9D lit9E lit9F litA0
    litA1 litA2 litA3 litA4 litA5 litA6 litA7 litA8 litA9 litAA litAB litAC litAD litAE litAF litB0 litB1 litB2
    litB3 litB4 litB5 litB6 litB7 litB8 litB9 litBA litBB litBC litBD litBE litBF litC0 litC1 litC2 litC3 litC4
    litC5 litC6 litC7 litC8 litC9 litCA litCB litCC litCD litCE litCF litD0 litD1 litD2 litD3 litD4 litD5 litD6
    litD7 litD8 litD9 litDA litDB litDC litDD litDE litDF litE0 litE1 litE2 litE3 litE4 litE5 litE6 litE7 litE8
    litE9 litEA litEB litEC litED litEE litEF litF0 litF1 litF2 litF3 litF4 litF5 litF6 litF7 litF8 litF9 litFA
    litFB litFC litFD litFE litFF eob i

/-- Every element is a dispatch, a fixed-width field or a symbol of one of the three alphabets. -/
theorem kind_cases (i : Instr) :
    (∃ f, i = .btype0Stored f ∨ i = .btype1Fixed f ∨ i = .btype2Dynamic f ∨ i = .btype3Reserved f) ∨
    (∃ f t, i = .hdr f t) ∨ (∃ len nlen, i = .storedLenNlen len nlen) ∨ (∃ h, i = .hlit h) ∨ (∃ d, i = .hdist d) ∨
    (∃ c, i = .hclen c) ∨ (∃ v, i = .cllen v) ∨ (∃ sym n x, formOf i = .symbol .litlen sym n x) ∨
    (∃ sym n x, formOf i = .symbol .dist sym n x) ∨ (∃ sym n x, formOf i = .symbol .clsym sym n x) := by
  cases i <;> first
    | exact .inr (.inr (.inr (.inr (.inr (.inr (.inr (.inl ⟨_, _, _, rfl⟩)))))))
    | exact .inr (.inr (.inr (.inr (.inr (.inr (.inr (.inr (.inl ⟨_, _, _, rfl⟩))))))))
    | exact .inr (.inr (.inr (.inr (.inr (.inr (.inr (.inr (.inr ⟨_, _, _, rfl⟩))))))))
    | exact .inl ⟨_, .inl rfl⟩
    | exact .inl ⟨_, .inr (.inl rfl)⟩
    | exact .inl ⟨_, .inr (.inr (.inl rfl))⟩
    | exact .inl ⟨_, .inr (.inr (.inr rfl))⟩
    | exact .inr (.inl ⟨_, _, rfl⟩)
    | exact .inr (.inr (.inl ⟨_, _, rfl⟩))
    | exact .inr (.inr (.inr (.inl ⟨_, rfl⟩)))
    | exact .inr (.inr (.inr (.inr (.inl ⟨_, rfl⟩))))
    | exact .inr (.inr (.inr (.inr (.inr (.inl ⟨_, rfl⟩)))))
    | exact .inr (.inr (.inr (.inr (.inr (.inr (.inl ⟨_, rfl⟩))))))

theorem form_litlen {i : Instr} {sym n x : Nat} (h : formOf i = .symbol .litlen sym n x) :
    litlenInstr sym x = some i ∧ n = lengthExtraBits sym ∧ x < 2 ^ n := by
  have := forms i
  rwa [Laws.Forms.Statement, h] at this

theorem form_dist {i : Instr} {sym n x : Nat} (h : formOf i = .symbol .dist sym n x) :
    distInstr sym x = some i ∧ n = distExtraBits sym ∧ x < 2 ^ n := by
  have := forms i
  rwa [Laws.Forms.Statement, h] at this

theorem form_clsym {i : Instr} {sym n x : Nat} (h : formOf i = .symbol .clsym sym n x) :
    clInstr sym x = some i ∧ n = clExtraBits sym ∧ x < 2 ^ n := by
  have := forms i
  rwa [Laws.Forms.Statement, h] at this

theorem sym_lt_of_litlenInstr {sym x : Nat} {i : Instr} (h : litlenInstr sym x = some i) : sym < 288 := by
  unfold litlenInstr at h
  split at h
  · omega
  · rcases Nat.lt_or_ge (sym - 256) lengthRows.length with hl | hl
    · have : lengthRows.length = 32 := rfl
      omega
    · rw [List.getElem?_eq_none hl] at h; cases h

theorem sym_lt_of_distInstr {sym x : Nat} {i : Instr} (h : distInstr sym x = some i) : sym < 32 := by
  rcases Nat.lt_or_ge sym distRows.length with hl | hl
  · exact hl
  · rw [distInstr, List.getElem?_eq_none hl] at h; cases h

theorem sym_lt_of_clInstr {sym x : Nat} {i : Instr} (h : clInstr sym x = some i) : sym < 19 := by
  rcases Nat.lt_or_ge sym clRows.length with hl | hl
  · exact hl
  · rw [clInstr, List.getElem?_eq_none hl] at h; cases h

/-! ### What the shared operations can do -/

/-- All that a run of code lengths can do (44_dynamic_header.md R214 to R219). -/
theorem codeLengthRun_cases {run : Nat} {val : BitVec 4} {s t : State} (h : codeLengthRun run val s = .next t) :
    (codeLenCount s ≤ s.bd.idx.toNat ∧ t = raise .valueRange 0 s) ∨
    (s.bd.idx.toNat < codeLenCount s ∧ codeLenCount s < s.bd.idx.toNat + run ∧ t = raise .runExceedsCount 0 s) ∨
    (s.bd.idx.toNat < codeLenCount s ∧ s.bd.idx.toNat + run < codeLenCount s ∧ t = withRun s (run, val)) ∨
    (s.bd.idx.toNat < codeLenCount s ∧ s.bd.idx.toNat + run = codeLenCount s ∧
      t = splitAndBuild (withRun s (run, val))) := by
  unfold codeLengthRun at h
  split at h
  · cases h; exact .inl ⟨‹_›, rfl⟩
  · split at h
    · cases h; exact .inr (.inl ⟨by omega, ‹_›, rfl⟩)
    · simp only at h
      split at h
      · cases h; exact .inr (.inr (.inr ⟨by omega, ‹_›, rfl⟩))
      · cases h; exact .inr (.inr (.inl ⟨by omega, by omega, rfl⟩))

/-- All that building the distance code can do (44_dynamic_header.md R223 to R225). -/
theorem buildDistCode_cases (lens : List (BitVec 4)) (s : State) :
    (lens = [0] ∧ buildDistCode lens s = { setDynamicFlags false s with bd.expect := .litlen }) ∨
    (lens ≠ [0] ∧ ∃ e, build (padDistLens lens) = .error e ∧ buildDistCode lens s = raiseBuild e 2 s) ∨
    (lens ≠ [0] ∧ ∃ code, build (padDistLens lens) = .ok code ∧
      buildDistCode lens s = { setDynamicFlags true s with bd.dCode := code, bd.expect := .litlen }) := by
  unfold buildDistCode
  split
  · exact .inl ⟨‹_›, rfl⟩
  · split
    · exact .inr (.inl ⟨‹_›, _, ‹_›, rfl⟩)
    · exact .inr (.inr ⟨‹_›, _, ‹_›, rfl⟩)

/-- All that splitting the code lengths can do (44_dynamic_header.md R221, R222). -/
theorem splitAndBuild_cases (s : State) :
    (∃ e, build (s.bd.codeLen.toList.take (countLL s.bd.hlit)) = .error e ∧ splitAndBuild s = raiseBuild e 1 s) ∨
    ∃ code, build (s.bd.codeLen.toList.take (countLL s.bd.hlit)) = .ok code ∧
      splitAndBuild s = buildDistCode ((s.bd.codeLen.toList.drop (countLL s.bd.hlit)).take (countD s.bd.hdist))
        { s with bd.llCode := code } := by
  unfold splitAndBuild
  split
  · exact .inl ⟨_, ‹_›, rfl⟩
  · exact .inr ⟨_, ‹_›, rfl⟩

/-- All that building the code-length code can do (44_dynamic_header.md R213). -/
theorem buildClCode_cases (s : State) :
    (∃ e, build (s.bd.clLen.toList.map (BitVec.setWidth 4)) = .error e ∧ buildClCode s = raiseBuild e 0 s) ∨
    ∃ code, build (s.bd.clLen.toList.map (BitVec.setWidth 4)) = .ok code ∧
      buildClCode s = { s with bd.clCode := code, bd.idx := 0, bd.expect := .clsym } := by
  unfold buildClCode
  split
  · exact .inl ⟨_, ‹_›, rfl⟩
  · exact .inr ⟨_, ‹_›, rfl⟩

/-- All that the end of a block can do (43_block_header_stored.md R200). -/
theorem endOfBlock_cases (s : State) :
    (s.bd.bfinal = true ∧ endOfBlock s = { s with bd.phase := .done }) ∨
    (s.bd.bfinal = false ∧ endOfBlock s = { s with bd.phase := .readingHeader, bd.expect := .header }) := by
  unfold endOfBlock
  split
  · exact .inl ⟨‹_›, rfl⟩
  · exact .inr ⟨by simp_all, rfl⟩

/-- All that a length symbol can do (45_huffman_body.md R243 to R247). -/
theorem lengthSymbol_cases {len : Nat} {s t : State} (h : lengthSymbol len s = .next t) :
    (s.bd.dPresent = true ∧ t = { s with bd.runLen := BitVec.ofNat 9 len, bd.expect := .dist }) ∨
    (s.bd.dPresent = false ∧ t = raise .noDistanceCode 0 s) := by
  unfold lengthSymbol at h
  split at h
  · cases h; exact .inl ⟨‹_›, rfl⟩
  · cases h; exact .inr ⟨by simp_all, rfl⟩

/-- All that a distance symbol can do (45_huffman_body.md R249 to R253). -/
theorem distanceSymbol_cases {dist : Nat} {s t : State} (h : distanceSymbol dist s = .next t) :
    (¬ RunLenOk s ∧ t = raise .valueRange 0 s) ∨
    (RunLenOk s ∧ (dist < 1 ∨ s.hb.fill.toNat < dist) ∧
      t = raise .invalidLengthOrDistance 0 { s with bd.expect := .litlen }) ∨
    (RunLenOk s ∧ 1 ≤ dist ∧ dist ≤ s.hb.fill.toNat ∧ ∃ bs : List Byte, bs.length = s.bd.runLen.toNat ∧
      t = emitAll bs { s with bd.expect := .litlen }) := by
  have hiff : (s.bd.runLen.toNat < Config.minMatch ∨ Config.maxMatch < s.bd.runLen.toNat) ↔ ¬ RunLenOk s := by
    simp only [RunLenOk, Config.minMatch, Config.maxMatch]; omega
  by_cases hr : RunLenOk s
  · rw [distanceSymbol, if_neg (by rw [hiff]; exact not_not_intro hr)] at h
    cases h
    rcases copy_cases dist s.bd.runLen.toNat { s with bd.expect := .litlen } with ⟨hd, h⟩ | ⟨h1, h2, bs, hl, h⟩
    · exact .inr (.inl ⟨hr, hd, h⟩)
    · exact .inr (.inr ⟨hr, h1, h2, bs, hl, h⟩)
  · rw [distanceSymbol, if_pos (hiff.mpr hr)] at h
    cases h
    exact .inl ⟨hr, rfl⟩

/-- The data loop emits bytes read from the source, in order, and ends the block or fails at the source's end
(43_block_header_stored.md R197). -/
theorem storedData_readsOn (k : Nat) (s : State) :
    s.out <+: (storedData k s).out ∧ (storedData k s).src.bytes = s.src.bytes ∧ s.src.pos ≤ (storedData k s).src.pos := by
  induction k generalizing s with
  | zero =>
    simp only [storedData]
    rcases endOfBlock_cases s with ⟨-, h⟩ | ⟨-, h⟩ <;> rw [h] <;> exact ⟨List.prefix_refl _, rfl, Nat.le_refl _⟩
  | succ k ih =>
    have hr := readUint_readsFrom 8 s
    simp only [storedData]
    split
    · rename_i r s' heq
      rw [heq] at hr
      have key : (raiseReject r s').out = s'.out ∧ (raiseReject r s').src = s'.src := by
        cases r with
        | unexpectedEnd got => cases got <;> exact ⟨rfl, rfl⟩
        | _ => exact ⟨rfl, rfl⟩
      rw [key.1, key.2]
      exact ⟨by rw [show s'.out = s.out from hr.out], hr.bytes, hr.pos⟩
    · rename_i v s' heq
      rw [heq] at hr
      obtain ⟨h1, h2, h3⟩ := ih
        { emit (BitVec.ofNat 8 v) s' with bd.cnt := (emit (BitVec.ofNat 8 v) s').bd.cnt - 1 }
      refine ⟨?_, h2.trans hr.bytes, Nat.le_trans hr.pos h3⟩
      refine List.IsPrefix.trans ?_ h1
      show s.out <+: s'.out ++ [_]
      rw [show s'.out = s.out from hr.out]
      exact List.prefix_append _ _

end Sys2Proof.Machine
end

