-- ==== Sys2Proof/Laws/Decoding.lean ====
section
/-!
SUPPORT. The decoder over a list of bits: what the loop of `decodeSymbol` finds, what a field read consumed, and the form of
the element a symbol and its extra bits give.
-/

namespace Sys2Proof.Machine

/-- The key after more bits have been shifted in, not cut to 16 bits. -/
def pathKey : Nat → List Bool → Nat
  | k, [] => k
  | k, b :: bs => pathKey (2 * k + b.toNat) bs

theorem readUintFrom_one (b : Bool) (bits : List Bool) : readUintFrom listBits 1 (b :: bits) = .ok b.toNat bits := by
  cases b <;> rfl

theorem readUintFrom_one_nil : readUintFrom listBits 1 ([] : List Bool) = .stop (.unexpectedEnd .nothing) [] := rfl

theorem decodeLoop_cons (code k key b bits) : decodeLoop listBits code (k+1) key (b :: bits) =
    match lookupKey code (shiftIn key b.toNat) with
    | some sym => .ok sym.toNat bits
    | none => decodeLoop listBits code k (shiftIn key b.toNat) bits := by
  rw [decodeLoop, readUintFrom_one]
  rfl

theorem decodeLoop_nil (code k key) : decodeLoop listBits code (k+1) key [] = .stop (.unexpectedEnd .nothing) [] := by
  simp only [decodeLoop, readUintFrom_one_nil, Got.bind]

theorem lookupKey_none {code key} (h : ∀ e ∈ code, e.key ≠ key) : lookupKey code key = none := by
  have : code.find? (fun e => e.key == key) = none := by
    rw [List.find?_eq_none]; intro e he; simpa using h e he
  simp [lookupKey, this]

theorem lookupKey_some {code : Code} {key s} (h : lookupKey code key = some s) : ∃ e ∈ code, e.key = key ∧ e.sym =
    s := by
  unfold lookupKey at h
  cases hf : code.find? (fun e => e.key == key) with
  | none => rw [hf] at h; simp at h
  | some e =>
    rw [hf] at h; simp at h
    exact ⟨e, List.mem_of_find?_eq_some hf, by simpa using List.find?_some hf, h⟩

theorem lookupKey_mem {code : Code} {e} (he : e ∈ code) (hu : ∀ d ∈ code, d.key = e.key → d = e) :
    lookupKey code e.key = some e.sym := by
  unfold lookupKey
  cases hf : code.find? (fun d => d.key == e.key) with
  | none => rw [List.find?_eq_none] at hf; have := hf e he; simp at this
  | some d =>
    have h1 := List.mem_of_find?_eq_some hf
    have h2 : d.key = e.key := by simpa using List.find?_some hf
    rw [hu d h1 h2]; rfl

/-- Bits that lead to an entry's key, no other key being a cut of it, decode to its symbol. -/
theorem pathKey_div (bs : List Bool) : ∀ k : Nat, pathKey k bs / 2 ^ bs.length = k := by
  induction bs with
  | nil => intro k; simp [pathKey]
  | cons b bs ih =>
    intro k
    rw [List.length_cons, Nat.pow_succ, ← Nat.div_div_eq_div_mul, pathKey, ih]
    cases b <;> (simp; try omega)

theorem decodeLoop_hit {code : Code} {e : Entry} (he : e ∈ code) (hu : ∀ d ∈ code, ∀ k, d.key.toNat =
    e.key.toNat / 2 ^ k → d = e ∧ k = 0) :
    ∀ (bs rest : List Bool) (key : BitVec 16) (n : Nat), bs ≠ [] → bs.length ≤ n → pathKey key.toNat bs = e.key.toNat → 
     decodeLoop listBits code n key (bs ++ rest) = .ok e.sym.toNat rest := by
  intro bs
  induction bs with
  | nil => intro _ _ _ h; exact absurd rfl h
  | cons b bs ih =>
    intro rest key n _ hn hk
    obtain ⟨n, rfl⟩ : ∃ m, n = m + 1 := ⟨n - 1, by simp at hn; omega⟩
    have pathKey_ge : ∀ (bs : List Bool) (k : Nat), k ≤ pathKey k bs := by
      intro bs; induction bs with
      | nil => intro k; simp [pathKey]
      | cons b bs ih => intro k; have := ih (2*k+b.toNat); simp only [pathKey]; omega
    have hlt : 2 * key.toNat + b.toNat < 2 ^ 16 := by
      have h1 := pathKey_ge bs (2 * key.toNat + b.toNat)
      have h2 := e.key.isLt
      simp only [pathKey] at hk; omega
    have hs : (shiftIn key b.toNat).toNat = 2 * key.toNat + b.toNat := by
      unfold shiftIn; rw [BitVec.toNat_ofNat, Nat.mod_eq_of_lt hlt]
    rw [List.cons_append, decodeLoop_cons]
    cases bs with
    | nil =>
      have : shiftIn key b.toNat = e.key := by apply BitVec.eq_of_toNat_eq; rw [hs]; exact hk
      rw [this, lookupKey_mem he fun d hd hdk => (hu d hd 0 (by simp [hdk])).1]
      rfl
    | cons c bs =>
      rw [lookupKey_none]
      · simp only
        exact ih rest _ n (by simp) (by simpa using hn) (by rw [hs]; exact hk)
      · intro d hd hdk
        have := (hu d hd (c :: bs).length (by rw [hdk, hs, ← hk]; simp only [pathKey]; exact (pathKey_div (c :: bs) _).symm)).2
        simp at this

/-- A decoded symbol is that of an entry whose key the bits consumed lead to. -/
theorem decodeLoop_ok {code : Code} : ∀ (n m : Nat) (key : BitVec 16) (bits rest : List Bool) (sym : Nat),
    key.toNat < 2 ^ m → m + n ≤ 16 → decodeLoop listBits code n key bits = .ok sym rest →
    ∃ bs e, bits = bs ++ rest ∧ e ∈ code ∧ e.sym.toNat = sym ∧ pathKey key.toNat bs = e.key.toNat ∧ bs.length ≤ n ∧ bs ≠ [] := by
  intro n; induction n with
  | zero => intro m key bits rest sym _ _ h; simp [decodeLoop] at h
  | succ n ih =>
    intro m key bits rest sym hk hm h
    cases bits with
    | nil => rw [decodeLoop_nil] at h; simp at h
    | cons b bits =>
      rw [decodeLoop_cons] at h
      have hlt2 : 2 * key.toNat + b.toNat < 2 ^ (m+1) := by
        rw [Nat.pow_succ]; cases b <;> simp <;> omega
      have h16 : 2 ^ (m+1) ≤ 2 ^ 16 := Nat.pow_le_pow_right (by omega) (by omega)
      have hs : (shiftIn key b.toNat).toNat = 2 * key.toNat + b.toNat := by
        unfold shiftIn; rw [BitVec.toNat_ofNat, Nat.mod_eq_of_lt (by omega)]
      split at h
      · rename_i s hl
        cases h
        obtain ⟨e, he, h1, h2⟩ := lookupKey_some hl
        refine ⟨[b], e, rfl, he, by rw [h2], ?_, by simp, by simp⟩
        rw [h1, hs]; rfl
      · obtain ⟨bs, e, h1, h2, h3, h4, h5, h6⟩ := ih (m+1) _ _ _ _ (by rw [hs]; exact hlt2) (by omega) h
        exact ⟨b :: bs, e, by rw [h1]; rfl, h2, h3, by rw [← h4, hs]; rfl, by simpa using h5, by simp⟩

/-- The loop overruns only after all its bits have been read. -/
theorem decodeLoop_overrun {code : Code} : ∀ (n : Nat) (key : BitVec 16) (bits rest : List Bool),
    decodeLoop listBits code n key bits = .stop .decodeOverrun rest → n ≤ bits.length := by
  intro n; induction n with
  | zero => intros; omega
  | succ n ih =>
    intro key bits rest h
    cases bits with
    | nil => rw [decodeLoop_nil] at h; simp at h
    | cons b bits =>
      rw [decodeLoop_cons] at h
      split at h
      · simp at h
      · simpa using ih _ _ _ h

theorem pathKey_append (bs cs) : ∀ k, pathKey k (bs ++ cs) = pathKey (pathKey k bs) cs := by
  induction bs with
  | nil => intro k; rfl
  | cons b bs ih => intro k; exact ih _

theorem pathKey_range : ∀ (bs : List Bool) (k : Nat), k * 2 ^ bs.length ≤ pathKey k bs ∧
    pathKey k bs < (k + 1) * 2 ^ bs.length := by
  intro bs k
  have := pathKey_div bs k
  have hp := Nat.two_pow_pos bs.length
  rw [Nat.div_eq_iff (by omega)] at this
  constructor
  · omega
  · rw [Nat.add_mul]; omega

/-- The bits of a key lead to it. -/
theorem keyBits_spec : ∀ (n k : Nat) (acc : List Bool), 1 ≤ k → k < 2 ^ (n + 1) → ∃ bs, keyBits n k acc =
    bs ++ acc ∧ pathKey 1 bs = k ∧ bs.length ≤ n := by
  intro n; induction n with
  | zero => intro k acc h1 h2; refine ⟨[], rfl, ?_, by simp⟩; simp [pathKey]; omega
  | succ n ih =>
    intro k acc h1 h2
    simp only [keyBits]
    split
    · refine ⟨[], rfl, ?_, by simp⟩; simp [pathKey]; omega
    · obtain ⟨bs, h3, h4, h5⟩ := ih (k / 2) (decide (k % 2 = 1) :: acc) (by omega) (by rw [Nat.pow_succ] at h2; omega)
      refine ⟨bs ++ [decide (k % 2 = 1)], by rw [h3]; simp, ?_, by simpa using h5⟩
      rw [pathKey_append, h4]
      simp only [pathKey]
      rcases Nat.mod_two_eq_zero_or_one k with h | h <;> simp [h] <;> omega

/-- A key determines its bits. -/
theorem pathKey_inj : ∀ (bs cs : List Bool), pathKey 1 bs = pathKey 1 cs → bs = cs := by
  have key : ∀ (n : Nat) (bs cs : List Bool) (j k : Nat), bs.length = n → cs.length = n →
      pathKey j bs = pathKey k cs → j = k ∧ bs = cs := by
    intro n; induction n with
    | zero => intro bs cs j k h1 h2 h; rw [List.length_eq_zero_iff] at h1 h2; subst h1 h2; exact ⟨h, rfl⟩
    | succ n ih =>
      intro bs cs j k h1 h2 h
      cases bs with
      | nil => simp at h1
      | cons b bs => cases cs with
        | nil => simp at h2
        | cons c cs =>
          obtain ⟨h3, h4⟩ := ih bs cs _ _ (by simpa using h1) (by simpa using h2) h
          subst h4
          cases b <;> cases c <;> simp at h3 ⊢ <;> omega
  intro bs cs h
  have h1 := pathKey_range bs 1
  have h2 := pathKey_range cs 1
  have : bs.length = cs.length := by
    rcases Nat.lt_trichotomy bs.length cs.length with hl | hl | hl
    · have : 2 ^ (bs.length + 1) ≤ 2 ^ cs.length := Nat.pow_le_pow_right (by omega) hl
      rw [Nat.pow_succ] at this; omega
    · exact hl
    · have : 2 ^ (cs.length + 1) ≤ 2 ^ bs.length := Nat.pow_le_pow_right (by omega) hl
      rw [Nat.pow_succ] at this; omega
  exact (key _ bs cs 1 1 this rfl h).2

/-- A number read is its field. -/
theorem readUintFrom_inv {n x bits rest} (h : readUintFrom listBits n bits = .ok x rest) : n ≤ 15 ∧ x < 2 ^ n ∧
    bits = fieldBits n x ++ rest := by
  unfold readUintFrom at h
  split at h
  · simp at h
  · rename_i hn
    simp [Config.maxUint] at hn
    refine ⟨hn, ?_⟩
    clear hn
    induction n generalizing x bits rest with
    | zero => simp only [readBits] at h; cases h; simp [fieldBits]
    | succ n ih =>
      cases bits with
      | nil => simp [readBits, listBits] at h
      | cons b bits =>
        simp only [readBits, listBits] at h
        cases hr : readBits listBits n bits with
        | stop r s => unfold listBits at hr; rw [hr] at h; simp [Got.bind] at h
        | ok v s =>
          obtain ⟨h1, h2⟩ := ih hr
          unfold listBits at hr; rw [hr] at h; simp [Got.bind] at h
          obtain ⟨rfl, rfl⟩ := h
          refine ⟨by rw [Nat.pow_succ]; cases b <;> simp <;> omega, ?_⟩
          rw [fieldBits, List.cons_append, h2]
          congr 1
          · cases b <;> simp
          · congr 2; cases b <;> (simp; try omega)

theorem readU16From_inv {x bits rest} (h : readU16From listBits bits = .ok x rest) : bits =
    fieldBits 16 x.toNat ++ rest := by
  unfold readU16From at h
  cases h2 : readUintFrom listBits 8 bits with
  | stop r s => rw [h2] at h; simp [Got.bind] at h
  | ok x s' =>
    rw [h2] at h; simp only [Got.bind] at h
    cases h3 : readUintFrom listBits 8 s' with
    | stop r s => rw [h3] at h; simp at h
    | ok y s'' =>
      rw [h3] at h; simp only at h; cases h
      obtain ⟨b1, b2, b3⟩ := readUintFrom_inv h2
      obtain ⟨c1, c2, c3⟩ := readUintFrom_inv h3
      rw [b3, c3, ← List.append_assoc]
      congr 1
      rw [BitVec.toNat_ofNat, Nat.mod_eq_of_lt (by omega),
        show fieldBits 16 (x + 256 * y) = fieldBits 8 (x + 256 * y) ++ fieldBits 8 ((x + 256 * y) / 2 ^ 8)
          from Laws.Forms.fieldBits_add 8 8 _]
      congr 1
      · rw [← Laws.Forms.fieldBits_mod 8 (x + 256 * y), show (x + 256 * y) % 2 ^ 8 = x by omega]
      · congr 1; omega

theorem formOf_literalRows : ∀ (k : Nat) (hk : k < literalRows.length), formOf (literalRows[k]) =
    .symbol .litlen k 0 0 := by
  have : ∀ k : Fin literalRows.length, formOf (literalRows[k.1]) = .symbol .litlen k.1 0 0 := by decide +kernel
  intro k hk; exact this ⟨k, hk⟩

set_option maxRecDepth 100000 in
/-- The element of a literal/length symbol is of its form. -/
theorem formOf_of_litlenInstr {sym x i} (h : litlenInstr sym x = some i) (hx : x < 2 ^ lengthExtraBits sym) :
    formOf i = .symbol .litlen sym (lengthExtraBits sym) x := by
  have hs := sym_lt_of_litlenInstr h
  unfold litlenInstr at h
  split at h
  · rename_i hlt
    have hz : lengthExtraBits sym = 0 := by rw [lengthExtraBits, if_neg (by omega)]
    rw [hz] at hx ⊢
    have : x = 0 := by omega
    subst this
    have hl : sym < literalRows.length := hlt
    rw [List.getElem?_eq_getElem hl] at h
    injection h with h
    subst h
    have : ∀ (k : Nat) (hk : k < literalRows.length), formOf (literalRows[k]) = .symbol .litlen k 0 0 := by
      exact formOf_literalRows
    exact this sym hl
  · rename_i hge
    obtain ⟨k, rfl⟩ : ∃ k, sym = 256 + k := ⟨sym - 256, by omega⟩
    rw [Nat.add_sub_cancel_left] at h
    have hk : k < 32 := by omega
    interval_cases k <;> simp only [lengthRows, List.flatten] at h <;> cases h <;> simp only [formOf] <;>
      first
        | (have : x = 0 := by (simp [lengthExtraBits] at hx; exact hx)); subst this; rfl
        | (simp [lengthExtraBits] at hx; rw [BitVec.toNat_ofNat, Nat.mod_eq_of_lt (by simpa using hx)]; rfl)

/-- The element of a distance symbol is of its form. -/
theorem formOf_of_distInstr {sym x i} (h : distInstr sym x = some i) (hx : x < 2 ^ distExtraBits sym) : formOf i =
    .symbol .dist sym (distExtraBits sym) x := by
  have hs := sym_lt_of_distInstr h
  unfold distInstr at h
  interval_cases sym <;> simp only [distRows, List.flatten] at h <;> cases h <;> simp only [formOf] <;>
    first
      | (have : x = 0 := by (simp [distExtraBits] at hx; exact hx)); subst this; rfl
      | (simp [distExtraBits] at hx; rw [BitVec.toNat_ofNat, Nat.mod_eq_of_lt (by simpa using hx)]; rfl)

/-- The element of a code-length symbol is of its form. -/
theorem formOf_of_clInstr {sym x i} (h : clInstr sym x = some i) (hx : x < 2 ^ clExtraBits sym) : formOf i =
    .symbol .clsym sym (clExtraBits sym) x := by
  have hs := sym_lt_of_clInstr h
  unfold clInstr at h
  interval_cases sym <;> simp only [clRows, List.flatten] at h <;> cases h <;> simp only [formOf] <;>
    first
      | (have : x = 0 := by (simp [clExtraBits] at hx; exact hx)); subst this; rfl
      | (simp [clExtraBits] at hx; rw [BitVec.toNat_ofNat, Nat.mod_eq_of_lt (by simpa using hx)]; rfl)

end Sys2Proof.Machine
end

