-- ==== Sys2Proof/Laws/Frames.lean ====
section
/-!
SUPPORT. What the shared operations leave alone: the reader, the history buffer, the output, the code tables.
-/

namespace Sys2Proof.Machine

/-- Building the block's codes touches the block decoder alone. -/
theorem splitAndBuild_frame (s : State) : (splitAndBuild s).src = s.src ∧ (splitAndBuild s).br = s.br ∧
    (splitAndBuild s).hb = s.hb ∧ (splitAndBuild s).out = s.out := by
  rcases splitAndBuild_cases s with ⟨e, -, h⟩ | ⟨c, -, h⟩ <;> rw [h]
  · cases e <;> exact ⟨rfl, rfl, rfl, rfl⟩
  · rcases buildDistCode_cases ((s.bd.codeLen.toList.drop (countLL s.bd.hlit)).take (countD s.bd.hdist)) { s with bd.llCode := c } with
      ⟨-, h⟩ | ⟨-, e, -, h⟩ | ⟨-, c, -, h⟩ <;> rw [h]
    · exact ⟨rfl, rfl, rfl, rfl⟩
    · cases e <;> exact ⟨rfl, rfl, rfl, rfl⟩
    · exact ⟨rfl, rfl, rfl, rfl⟩

theorem buildClCode_frame (s : State) : (buildClCode s).src = s.src ∧ (buildClCode s).br = s.br ∧
    (buildClCode s).hb = s.hb ∧ (buildClCode s).out = s.out := by
  rcases buildClCode_cases s with ⟨e, -, h⟩ | ⟨c, -, h⟩ <;> rw [h]
  · cases e <;> exact ⟨rfl, rfl, rfl, rfl⟩
  · exact ⟨rfl, rfl, rfl, rfl⟩

/-- A run of code lengths touches the block decoder alone. -/
theorem codeLengthRun_frame {run val s t} (h : codeLengthRun run val s = .next t) : t.src = s.src ∧ t.br = s.br ∧
    t.hb = s.hb ∧ t.out = s.out := by
  rcases codeLengthRun_cases h with ⟨-, rfl⟩ | ⟨-, -, rfl⟩ | ⟨-, -, rfl⟩ | ⟨-, -, rfl⟩
  · exact ⟨rfl, rfl, rfl, rfl⟩
  · exact ⟨rfl, rfl, rfl, rfl⟩
  · exact ⟨rfl, rfl, rfl, rfl⟩
  · exact splitAndBuild_frame _

theorem clMeaning_frame {sym x s t} (h : clMeaning sym x s = .next t) : t.src = s.src ∧ t.br = s.br ∧ t.hb = s.hb ∧
    t.out = s.out := by
  unfold clMeaning at h
  split at h
  · exact codeLengthRun_frame h
  · split at h
    · split at h
      · cases h; exact ⟨rfl, rfl, rfl, rfl⟩
      · exact codeLengthRun_frame h
    · split at h <;> exact codeLengthRun_frame h

theorem execCllen_frame {v s t} (h : execCllen v s = .next t) : t.src = s.src ∧ t.br = s.br ∧ t.hb = s.hb ∧ t.out =
    s.out := by
  unfold execCllen at h
  split at h
  · cases h; exact ⟨rfl, rfl, rfl, rfl⟩
  · simp only at h
    split at h
    · cases h; exact buildClCode_frame _
    · cases h; exact ⟨rfl, rfl, rfl, rfl⟩

/-- The end of a block touches the block decoder alone. -/
theorem endOfBlock_frame (s : State) : (endOfBlock s).src = s.src ∧ (endOfBlock s).br = s.br ∧ (endOfBlock s).hb =
    s.hb ∧ (endOfBlock s).out = s.out := by
  rcases endOfBlock_cases s with ⟨-, h⟩ | ⟨-, h⟩ <;> rw [h] <;> exact ⟨rfl, rfl, rfl, rfl⟩

/-- Aligning only reads. -/
theorem alignLoop_readsFrom (k : Nat) : ∀ s : State, ReadsFrom s (Got.state (alignLoop k s)) := by
  induction k with
  | zero => intro s; exact .refl s
  | succ k ih =>
    intro s
    unfold alignLoop
    split
    · exact .refl s
    · have := readUint_readsFrom 1 s
      cases h : readUint 1 s with
      | stop r s' => rw [h] at this; exact this
      | ok v s' =>
        rw [h] at this
        have h2 := ih s'
        exact ⟨h2.hb.trans this.hb, h2.bd.trans this.bd, h2.out.trans this.out, h2.bytes.trans this.bytes, Nat.le_trans this.pos h2.pos⟩

/-- A rejected read touches the block decoder alone, and no code. -/
theorem raiseReject_frame (r : Reject) (s : State) : (raiseReject r s).src = s.src ∧ (raiseReject r s).br = s.br ∧
    (raiseReject r s).hb = s.hb ∧ (raiseReject r s).out = s.out ∧ (raiseReject r s).bd.clCode = s.bd.clCode ∧
    (raiseReject r s).bd.llCode = s.bd.llCode ∧ (raiseReject r s).bd.dCode = s.bd.dCode := by
  cases r with
  | unexpectedEnd got => cases got <;> exact ⟨rfl, rfl, rfl, rfl, rfl, rfl, rfl⟩
  | _ => exact ⟨rfl, rfl, rfl, rfl, rfl, rfl, rfl⟩

/-- `BTYPE0_STORED` moves the reader on; the history buffer, the output and the codes stay. -/
theorem execBtype0Stored_frame {f s t} (h : execBtype0Stored f s = .next t) : t.hb = s.hb ∧ t.out = s.out ∧
    t.src.bytes = s.src.bytes ∧ s.src.pos ≤ t.src.pos ∧ t.bd.clCode = s.bd.clCode ∧ t.bd.llCode = s.bd.llCode ∧
    t.bd.dCode = s.bd.dCode := by
  unfold execBtype0Stored at h
  have := alignLoop_readsFrom 7 { s with bd.phase := .storedBlock }
  have e : alignToByte { s with bd.phase := .storedBlock } = alignLoop 7 { s with bd.phase := .storedBlock } := rfl
  rw [e] at h
  cases h2 : alignLoop 7 { s with bd.phase := .storedBlock } with
  | ok a s' =>
    rw [h2] at h this; cases h
    have hbd : s'.bd = { s.bd with phase := .storedBlock } := this.bd
    refine ⟨this.hb, this.out, this.bytes, this.pos, ?_, ?_, ?_⟩ <;> simp [hbd]
  | stop r s' =>
    rw [h2] at h this; cases h
    have hbd : s'.bd = { s.bd with phase := .storedBlock } := this.bd
    obtain ⟨a, b, c, d, e, f, g⟩ := raiseReject_frame r s'
    rw [a, c, d, e, f, g]
    refine ⟨this.hb, this.out, this.bytes, this.pos, ?_, ?_, ?_⟩ <;> simp [hbd]

/-- A literal/length symbol that is no literal touches the block decoder alone. -/
theorem litlenMeaning_frame {sym x s t} (h : litlenMeaning sym x s = .next t) (hs : 256 ≤ sym) : t.src = s.src ∧
    t.br = s.br ∧ t.hb = s.hb ∧ t.out = s.out := by
  unfold litlenMeaning at h
  rw [if_neg (by omega)] at h
  split at h
  · cases h; exact endOfBlock_frame s
  · split at h
    · rcases lengthSymbol_cases h with ⟨-, rfl⟩ | ⟨-, rfl⟩ <;> exact ⟨rfl, rfl, rfl, rfl⟩
    · cases h; exact ⟨rfl, rfl, rfl, rfl⟩

/-- A distance symbol reads nothing, builds nothing and takes no output back. -/
theorem distMeaning_frame {sym x s t} (h : distMeaning sym x s = .next t) : t.src = s.src ∧ t.br = s.br ∧
    s.out <+: t.out ∧ t.bd.clCode = s.bd.clCode ∧ t.bd.llCode = s.bd.llCode ∧ t.bd.dCode = s.bd.dCode := by
  unfold distMeaning at h
  split at h
  · rcases distanceSymbol_cases h with ⟨-, rfl⟩ | ⟨-, -, rfl⟩ | ⟨-, -, -, bs, -, rfl⟩
    · exact ⟨rfl, rfl, List.prefix_refl _, rfl, rfl, rfl⟩
    · exact ⟨rfl, rfl, List.prefix_refl _, rfl, rfl, rfl⟩
    · simp
  · cases h; exact ⟨rfl, rfl, List.prefix_refl _, rfl, rfl, rfl⟩

/-- The data loop builds nothing. -/
theorem storedData_codes (k : Nat) : ∀ s : State, (storedData k s).bd.clCode = s.bd.clCode ∧
    (storedData k s).bd.llCode = s.bd.llCode ∧ (storedData k s).bd.dCode = s.bd.dCode := by
  induction k with
  | zero => intro s; simp only [storedData]; rcases endOfBlock_cases s with ⟨-, h⟩ | ⟨-, h⟩ <;> rw [h] <;> exact ⟨rfl, rfl, rfl⟩
  | succ k ih =>
    intro s
    have hr := (readUint_readsFrom 8 s).bd
    simp only [storedData]
    split
    · rename_i r s' heq
      rw [heq] at hr
      obtain ⟨-, -, -, -, e, f, g⟩ := raiseReject_frame r s'
      rw [e, f, g, show s'.bd = s.bd from hr]; exact ⟨rfl, rfl, rfl⟩
    · rename_i v s' heq
      rw [heq] at hr
      obtain ⟨h1, h2, h3⟩ := ih { emit (BitVec.ofNat 8 v) s' with bd.cnt := (emit (BitVec.ofNat 8 v) s').bd.cnt - 1 }
      rw [h1, h2, h3]
      show s'.bd.clCode = _ ∧ s'.bd.llCode = _ ∧ s'.bd.dCode = _
      rw [show s'.bd = s.bd from hr]; exact ⟨rfl, rfl, rfl⟩

end Sys2Proof.Machine
end

