-- ==== Sys2Proof/Laws/Tiles.lean ====
section
/-!
SUPPORT. What `build` makes: its counter is the Kraft sum, and the codes of an accepted table, padded to 15 bits, are tiles
that fill the line from 0 to `2^15` side by side.
-/

namespace Sys2Proof.Machine

/-- The number of symbols with code length `L`. -/
abbrev lengthCount (L : Nat) (ls : List (BitVec 4)) : Nat := ls.countP (fun l => l.toNat == L)

/-- A length step that starts with a counter within `2^L` accepts exactly where the counter stays within it. -/
theorem assignLength_eq (L : Nat) : ∀ (ls : List (BitVec 4)) (s next : Nat), next ≤ 2 ^ L →
    (next + lengthCount L ls ≤ 2 ^ L ∧ ∃ t, assignLength L s next ls = .ok (next + lengthCount L ls, t)) ∨
    (2 ^ L < next + lengthCount L ls ∧ assignLength L s next ls = .error .overfull) := by
  intro ls
  induction ls with
  | nil => intro s next h; exact .inl ⟨by simpa [lengthCount], [], rfl⟩
  | cons l ls ih =>
    intro s next h
    by_cases hl : l.toNat = L
    · have hc : lengthCount L (l :: ls) = lengthCount L ls + 1 := by simp [lengthCount, hl]
      rw [hc]
      simp only [assignLength, hl, if_true]
      by_cases h2 : 2 ^ L ≤ next
      · rw [if_pos h2]; exact .inr ⟨by omega, rfl⟩
      · rw [if_neg h2]
        rcases ih (s+1) (next+1) (by omega) with ⟨h3, t, h4⟩ | ⟨h3, h4⟩ <;> rw [h4]
        · refine .inl ⟨by omega, ⟨sentinelKey L next, BitVec.ofNat 9 s⟩ :: t, ?_⟩
          simp only; rw [show next + 1 + lengthCount L ls = next + (lengthCount L ls + 1) by omega]
        · exact .inr ⟨by omega, rfl⟩
    · have hc : lengthCount L (l :: ls) = lengthCount L ls := by simp [lengthCount, hl]
      rw [hc]
      simp only [assignLength, hl, if_false]
      exact ih _ _ h

/-- The counter after `k` length steps from `L` on, were none of them over-full (R151). -/
def finalCount (lens : List (BitVec 4)) : Nat → Nat → Nat → Nat
  | 0, _, n => n
  | k + 1, L, n => finalCount lens k (L + 1) (2 * n + lengthCount L lens)

theorem finalCount_ge (lens) : ∀ k L n, n * 2 ^ k ≤ finalCount lens k L n := by
  intro k; induction k with
  | zero => intro L n; simp [finalCount]
  | succ k ih =>
    intro L n
    have := ih (L+1) (2*n + lengthCount L lens)
    simp only [finalCount]
    rw [Nat.pow_succ]
    nlinarith [Nat.zero_le (lengthCount L lens * 2^k)]

theorem finalCount_add (lens) : ∀ k L n d, finalCount lens k L (n + d) = finalCount lens k L n + d * 2 ^ k := by
  intro k; induction k with
  | zero => intro L n d; simp [finalCount]
  | succ k ih =>
    intro L n d
    simp only [finalCount]
    rw [show 2 * (n + d) + lengthCount L lens = (2 * n + lengthCount L lens) + 2 * d by omega, ih, Nat.pow_succ]
    ring

/-- One more symbol adds its share to the counter. -/
theorem finalCount_cons (l ls) : ∀ k L n, finalCount (l :: ls) k L n = finalCount ls k L n + if L ≤ l.toNat ∧
    l.toNat < L + k then 2 ^ (L + k - 1 - l.toNat) else 0 := by
  intro k; induction k with
  | zero => intro L n; simp [finalCount]; try omega
  | succ k ih =>
    intro L n
    simp only [finalCount]
    rw [ih]
    by_cases hl : l.toNat = L
    · have hc : lengthCount L (l :: ls) = lengthCount L ls + 1 := by simp [lengthCount, hl]
      rw [hc, ← Nat.add_assoc, finalCount_add, if_neg (by omega), if_pos (by omega), hl]
      rw [show L + (k+1) - 1 - L = k by omega]; simp
    · have hc : lengthCount L (l :: ls) = lengthCount L ls := by simp [lengthCount, hl]
      rw [hc]
      congr 1
      rw [show L + 1 + k = L + (k+1) by omega]
      by_cases h2 : L ≤ l.toNat ∧ l.toNat < L + (k+1)
      · rw [if_pos h2, if_pos (by omega)]
      · rw [if_neg h2, if_neg (by omega)]

/-- The counter after all fifteen steps is the Kraft sum (R155). -/
theorem finalCount_kraft (lens) : finalCount lens 15 1 0 = kraftSum lens := by
  induction lens with
  | nil => rfl
  | cons l ls ih =>
    rw [finalCount_cons, ih, kraftSum, Nat.add_comm]
    have := l.isLt
    congr 1
    by_cases h : l = 0
    · subst h; simp
    · have : l.toNat ≠ 0 := fun h0 => h (BitVec.eq_of_toNat_eq (by simpa using h0))
      rw [if_neg h, if_pos (by omega)]

/-- The length steps accept exactly where the counter stays within `2^L` to the end. -/
theorem assignLengths_eq (lens) : ∀ k M n, n ≤ 2 ^ M →
    (finalCount lens k (M+1) n ≤ 2 ^ (M + k) ∧ ∃ t, assignLengths lens k (M+1) n = .ok (finalCount lens k (M+1) n, t)) ∨
    (2 ^ (M + k) < finalCount lens k (M+1) n ∧ assignLengths lens k (M+1) n = .error .overfull) := by
  intro k; induction k with
  | zero => intro M n h; exact .inl ⟨h, [], rfl⟩
  | succ k ih =>
    intro M n h
    simp only [finalCount, assignLengths]
    have h2 : 2 * n ≤ 2 ^ (M+1) := by rw [Nat.pow_succ]; omega
    rcases assignLength_eq (M+1) lens 0 (2*n) h2 with ⟨h3, t, h4⟩ | ⟨h3, h4⟩ <;> rw [h4]
    · simp only
      rcases ih (M+1) _ h3 with ⟨h5, t', h6⟩ | ⟨h5, h6⟩ <;> rw [h6]
      · exact .inl ⟨by rw [show M + (k+1) = M + 1 + k by omega]; exact h5, _, rfl⟩
      · exact .inr ⟨by rw [show M + (k+1) = M + 1 + k by omega]; exact h5, rfl⟩
    · refine .inr ⟨?_, rfl⟩
      have := finalCount_ge lens k (M+1+1) (2*n + lengthCount (M+1) lens)
      have h7 : 2 ^ (M + (k+1)) = 2 ^ (M+1) * 2 ^ k := by rw [← Nat.pow_add]; congr 1; omega
      rw [h7]
      have : 0 < 2 ^ k := Nat.two_pow_pos k
      calc _ < (2 * n + lengthCount (M+1) lens) * 2 ^ k := (Nat.mul_lt_mul_right this).mpr h3
        _ ≤ _ := by assumption

/-! ### Tiles -/

/-- A code as a stretch of the line of 15-bit values: symbol, length and value. -/
structure Tile where
  sym : Nat
  len : Nat
  val : Nat
  deriving DecidableEq, Repr

/-- The tiles one length step makes, for the symbols from `s` on. -/
def tilesOfLength (L : Nat) : Nat → Nat → List (BitVec 4) → List Tile
  | _, _, [] => []
  | s, n, l :: ls => if l.toNat = L then ⟨s, L, n⟩ :: tilesOfLength L (s+1) (n+1) ls else tilesOfLength L (s+1) n ls

/-- The tiles of `k` length steps from `L` on. -/
def tilesFrom (lens : List (BitVec 4)) : Nat → Nat → Nat → List Tile
  | 0, _, _ => []
  | k+1, L, n => tilesOfLength L 0 (2*n) lens ++ tilesFrom lens k (L+1) (2*n + lengthCount L lens)

/-- The table entry of a tile. -/
def Tile.entry (t : Tile) : Entry := ⟨sentinelKey t.len t.val, BitVec.ofNat 9 t.sym⟩

theorem assignLength_tiles (L : Nat) : ∀ (ls : List (BitVec 4)) (s n n' : Nat) (t : Code), assignLength L s n ls =
    .ok (n', t) →
    t = (tilesOfLength L s n ls).map Tile.entry := by
  intro ls; induction ls with
  | nil => intro s n n' t h; simp only [assignLength] at h; cases h; rfl
  | cons l ls ih =>
    intro s n n' t h
    simp only [assignLength] at h
    split at h
    · rename_i hl
      split at h
      · cases h
      · split at h
        · cases h
        · rename_i hr; cases h; simp only [tilesOfLength, hl, if_true, List.map_cons]; rw [← ih _ _ _ _ hr]; rfl
    · rename_i hl; simp only [tilesOfLength, hl, if_false]; exact ih _ _ _ _ h

/-- An accepted table is its tiles' entries. -/
theorem assignLengths_tiles (lens) : ∀ k L n n' t, assignLengths lens k L n = .ok (n', t) → t =
    (tilesFrom lens k L n).map Tile.entry := by
  intro k; induction k with
  | zero => intro L n n' t h; simp only [assignLengths] at h; cases h; rfl
  | succ k ih =>
    intro L n n' t h
    obtain ⟨m, a, b, h1, h2, rfl⟩ := assignLengths_succ.mp h
    have := (assignLength_ok h1).1
    simp only [tilesFrom, List.map_append, ← assignLength_tiles _ _ _ _ _ _ h1]
    rw [this] at h2
    rw [← ih _ _ _ _ h2]

/-- Where a tile starts and stops on the line of 15-bit values. -/
abbrev Tile.start (t : Tile) : Nat := t.val * 2 ^ (15 - t.len)

abbrev Tile.stop (t : Tile) : Nat := (t.val + 1) * 2 ^ (15 - t.len)

/-- The tiles stand side by side from `a` to `b`. -/
def Chain : Nat → List Tile → Nat → Prop
  | a, [], b => a = b
  | a, t :: ts, b => Tile.start t = a ∧ Chain (Tile.stop t) ts b

theorem chain_append {a b c ts us} (h1 : Chain a ts b) (h2 : Chain b us c) : Chain a (ts ++ us) c := by
  induction ts generalizing a with
  | nil => simp only [Chain] at h1; subst h1; exact h2
  | cons t ts ih => exact ⟨h1.1, ih h1.2⟩

theorem chain_tilesOfLength (L) : ∀ ls s n, Chain (n * 2 ^ (15 - L)) (tilesOfLength L s n ls)
    ((n + lengthCount L ls) * 2 ^ (15 - L)) := by
  intro ls; induction ls with
  | nil => intro s n; simp [tilesOfLength, Chain, lengthCount]
  | cons l ls ih =>
    intro s n
    by_cases hl : l.toNat = L
    · have hc : lengthCount L (l :: ls) = lengthCount L ls + 1 := by simp [lengthCount, hl]
      rw [hc]; simp only [tilesOfLength, hl, if_true]
      refine ⟨rfl, ?_⟩
      have := ih (s+1) (n+1)
      rw [show n + 1 + lengthCount L ls = n + (lengthCount L ls + 1) by omega] at this
      exact this
    · have hc : lengthCount L (l :: ls) = lengthCount L ls := by simp [lengthCount, hl]
      rw [hc]; simp only [tilesOfLength, hl, if_false]
      exact ih _ _

theorem chain_tilesFrom (lens) : ∀ k L n, 1 ≤ L → L + k ≤ 16 → Chain (n * 2 ^ (16 - L)) (tilesFrom lens k L n)
    (finalCount lens k L n * 2 ^ (16 - L - k)) := by
  intro k; induction k with
  | zero => intro L n _ _; simp [tilesFrom, Chain, finalCount]
  | succ k ih =>
    intro L n h1 h2
    simp only [tilesFrom, finalCount]
    have a := chain_tilesOfLength L lens 0 (2*n)
    have b := ih (L+1) (2*n + lengthCount L lens) (by omega) (by omega)
    rw [show 2 * n * 2 ^ (15 - L) = n * 2 ^ (16 - L) by rw [show 16 - L = 15 - L + 1 by omega, Nat.pow_succ]; ring] at a
    rw [show 16 - (L+1) = 15 - L by omega] at b
    rw [show 16 - L - (k+1) = 15 - L - k by omega]
    exact chain_append a b

theorem mem_tilesOfLength (L) : ∀ ls s n t, t ∈ tilesOfLength L s n ls ↔ ∃ i l, ls[i]? = some l ∧ l.toNat = L ∧ t =
    ⟨s + i, L, n + lengthCount L (ls.take i)⟩ := by
  intro ls; induction ls with
  | nil => intro s n t; simp [tilesOfLength]
  | cons l ls ih =>
    intro s n t
    by_cases hl : l.toNat = L
    · simp only [tilesOfLength, hl, if_true, List.mem_cons, ih]
      constructor
      · rintro (rfl | ⟨i, m, h1, h2, rfl⟩)
        · exact ⟨0, l, rfl, hl, by simp [lengthCount]⟩
        · exact ⟨i+1, m, h1, h2, by simp [lengthCount, hl]; omega⟩
      · rintro ⟨i, m, h1, h2, rfl⟩
        cases i with
        | zero => left; simp [lengthCount]
        | succ i => right; exact ⟨i, m, h1, h2, by simp [lengthCount, hl]; omega⟩
    · simp only [tilesOfLength, hl, if_false, ih]
      constructor
      · rintro ⟨i, m, h1, h2, rfl⟩
        exact ⟨i+1, m, h1, h2, by simp [lengthCount, hl]; omega⟩
      · rintro ⟨i, m, h1, h2, rfl⟩
        cases i with
        | zero => simp at h1; subst h1; exact absurd h2 hl
        | succ i => exact ⟨i, m, h1, h2, by simp [lengthCount, hl]; omega⟩

/-- The first code value of length `L + j`, counting from `L` with counter `n`. -/
def firstValue (lens : List (BitVec 4)) : Nat → Nat → Nat → Nat
  | 0, _, n => 2 * n
  | j+1, L, n => firstValue lens j (L+1) (2*n + lengthCount L lens)

/-- The tiles, one by one: a symbol of each nonzero length, its value the first of its length plus its rank. -/
theorem mem_tilesFrom (lens) : ∀ k L n t, t ∈ tilesFrom lens k L n ↔ ∃ j i l, j < k ∧ lens[i]? = some l ∧ l.toNat =
    L + j ∧ t = ⟨i, L + j, firstValue lens j L n + lengthCount (L+j) (lens.take i)⟩ := by
  intro k; induction k with
  | zero => intro L n t; simp [tilesFrom]
  | succ k ih =>
    intro L n t
    simp only [tilesFrom, List.mem_append, mem_tilesOfLength, ih]
    constructor
    · rintro (⟨i, l, h1, h2, rfl⟩ | ⟨j, i, l, h0, h1, h2, rfl⟩)
      · exact ⟨0, i, l, by omega, h1, h2, by simp [firstValue]⟩
      · refine ⟨j+1, i, l, by omega, h1, by omega, ?_⟩
        simp only [firstValue, Nat.add_assoc, Nat.add_comm 1 j]
    · rintro ⟨j, i, l, h0, h1, h2, rfl⟩
      cases j with
      | zero => left; exact ⟨i, l, h1, h2, by simp [firstValue]⟩
      | succ j => right; refine ⟨j, i, l, by omega, h1, by omega, ?_⟩; simp only [firstValue, Nat.add_assoc, Nat.add_comm 1 j]

theorem chain_mem {ts} : ∀ {a b}, Chain a ts b → ∀ t ∈ ts, a ≤ Tile.start t ∧ Tile.stop t ≤ b ∧ a ≤ b := by
  induction ts with
  | nil => intro a b _ t ht; simp at ht
  | cons u ts ih =>
    intro a b h t ht
    obtain ⟨h1, h2⟩ := h
    have hu : Tile.start u ≤ Tile.stop u := Nat.mul_le_mul_right _ (by omega)
    have hle : Tile.stop u ≤ b := by
      cases ts with
      | nil => exact Nat.le_of_eq h2
      | cons w ts => have := ih h2 w (by simp); omega
    rcases List.mem_cons.mp ht with rfl | ht
    · exact ⟨by omega, hle, by omega⟩
    · have := ih h2 t ht; exact ⟨by omega, this.2.1, by omega⟩

theorem chain_pairwise {ts} : ∀ {a b}, Chain a ts b → ts.Pairwise (fun x y => Tile.stop x ≤ Tile.start y) := by
  induction ts with
  | nil => intro a b _; exact .nil
  | cons u ts ih => intro a b h; exact .cons (fun t ht => (chain_mem h.2 t ht).1) (ih h.2)

/-- Every value in the range of a chain lies in a tile. -/
theorem chain_cover {ts} : ∀ {a b}, Chain a ts b → ∀ x, a ≤ x → x < b → ∃ t ∈ ts, Tile.start t ≤ x ∧
    x < Tile.stop t := by
  induction ts with
  | nil => intro a b h x h1 h2; simp only [Chain] at h; omega
  | cons u ts ih =>
    intro a b h x h1 h2
    by_cases hx : x < Tile.stop u
    · exact ⟨u, by simp, by rw [h.1]; exact h1, hx⟩
    · obtain ⟨t, ht, h3⟩ := ih h.2 x (by omega) h2; exact ⟨t, by simp [ht], h3⟩

/-- What an accepted code is: the entries of tiles that fill the line from 0 to `2^15`, each within its length and for a symbol
of that length. -/
theorem build_tiles {lens code} (h : build lens = .ok code) : code = (tilesFrom lens 15 1 0).map Tile.entry ∧
    Chain 0 (tilesFrom lens 15 1 0) (2^15) ∧
    ∀ t ∈ tilesFrom lens 15 1 0, 1 ≤ t.len ∧ t.len ≤ 15 ∧ t.val < 2 ^ t.len ∧ ∃ l, lens[t.sym]? = some l ∧ l.toNat = t.len := by
  have h' := build_ok.mp h
  have hc := chain_tilesFrom lens 15 1 0 (by omega) (by omega)
  have hk : finalCount lens 15 1 0 = 2 ^ 15 := by
    rcases assignLengths_eq lens 15 0 0 (by simp) with ⟨-, t, h1⟩ | ⟨-, h1⟩ <;> rw [show 0 + 1 = 1 from rfl, h'] at h1
    · injection h1 with h1; injection h1 with h1 _; exact h1.symm
    · cases h1
  rw [hk] at hc
  simp at hc
  refine ⟨assignLengths_tiles _ _ _ _ _ _ h', by simpa using hc, ?_⟩
  intro t ht
  have := chain_mem hc t ht
  obtain ⟨j, i, l, h0, h1, h2, rfl⟩ := (mem_tilesFrom _ _ _ _ _).mp ht
  refine ⟨by simp, by show 1 + j ≤ 15; omega, ?_, l, h1, h2⟩
  have h3 := this.2.1
  simp only [Tile.stop] at h3
  have h4 : (2:Nat) ^ 15 = 2 ^ (1+j) * 2 ^ (15 - (1+j)) := by rw [← Nat.pow_add]; congr 1; omega
  have h5 : 0 < 2 ^ (15 - (1+j)) := Nat.two_pow_pos _
  rw [show (32768:Nat) = 2^15 by norm_num, h4] at h3
  have := Nat.le_of_mul_le_mul_right h3 h5
  simp only; omega

theorem sentinelKey_toNat (L v : Nat) (h : v < 2 ^ L) (hL : L ≤ 15) : (sentinelKey L v).toNat = 2 ^ L + v := by
  unfold sentinelKey
  have : 2 ^ L ≤ 2 ^ 15 := Nat.pow_le_pow_right (by omega) hL
  rw [BitVec.toNat_ofNat, Nat.mod_eq_of_lt]
  have : (2:Nat)^15 + 2^15 = 2^16 := by norm_num
  omega

theorem Tile.start_lt_stop (t : Tile) : Tile.start t < Tile.stop t := (Nat.mul_lt_mul_right (Nat.two_pow_pos _)).mpr
    (by omega)

/-- A value lies in one tile only. -/
theorem chain_unique {ts a b} (h : Chain a ts b) {x y} (hx : x ∈ ts) (hy : y ∈ ts) {p} (h1 : Tile.start x ≤ p)
    (h2 : p < Tile.stop x) (h3 : Tile.start y ≤ p) (h4 : p < Tile.stop y) : x = y := by
  have hp := chain_pairwise h
  rw [List.pairwise_iff_getElem] at hp
  obtain ⟨i, hi, rfl⟩ := List.getElem_of_mem hx
  obtain ⟨j, hj, rfl⟩ := List.getElem_of_mem hy
  rcases Nat.lt_trichotomy i j with hl | rfl | hl
  · have := hp i j hi hj hl; omega
  · rfl
  · have := hp j i hj hi hl; omega

/-- A key that is another one cut short by `k` bits is the key of a code `k` bits shorter. -/
theorem prefix_of_div {L v M w k : Nat} (hv : v < 2 ^ L) (hw : w < 2 ^ M) (h : 2 ^ L + v = (2 ^ M + w) / 2 ^ k) :
    M = L + k ∧ v = w / 2 ^ k := by
  have hk : k ≤ M := by
    by_contra hk
    have : (2 ^ M + w) / 2 ^ k = 0 := by
      apply Nat.div_eq_of_lt
      have : 2 ^ (M+1) ≤ 2 ^ k := Nat.pow_le_pow_right (by omega) (by omega)
      rw [Nat.pow_succ] at this; omega
    have := Nat.two_pow_pos L; omega
  have e : 2 ^ M = 2 ^ (M-k) * 2 ^ k := by rw [← Nat.pow_add]; congr 1; omega
  rw [e, Nat.mul_comm, Nat.mul_add_div (Nat.two_pow_pos k)] at h
  have hw' : w / 2 ^ k < 2 ^ (M - k) := by
    rw [Nat.div_lt_iff_lt_mul (Nat.two_pow_pos k), ← e]; exact hw
  generalize w / 2 ^ k = q at *
  have : L = M - k := by
    rcases Nat.lt_trichotomy L (M-k) with hl | hl | hl
    · have : 2 ^ (L+1) ≤ 2 ^ (M-k) := Nat.pow_le_pow_right (by omega) hl
      rw [Nat.pow_succ] at this; omega
    · exact hl
    · have : 2 ^ (M-k+1) ≤ 2 ^ L := Nat.pow_le_pow_right (by omega) hl
      rw [Nat.pow_succ] at this; omega
  subst this
  exact ⟨by omega, by omega⟩

theorem tile_eq_of_prefix {lens code} (h : build lens = .ok code) {x y k} (hx : x ∈ tilesFrom lens 15 1 0)
    (hy : y ∈ tilesFrom lens 15 1 0)
   (hk : (Tile.entry x).key.toNat = (Tile.entry y).key.toNat / 2 ^ k) : x = y ∧ k = 0 := by
  obtain ⟨-, hc, hm⟩ := build_tiles h
  obtain ⟨a1, a2, a3, -⟩ := hm x hx
  obtain ⟨b1, b2, b3, -⟩ := hm y hy
  simp only [Tile.entry] at hk
  rw [sentinelKey_toNat _ _ a3 a2, sentinelKey_toNat _ _ b3 b2] at hk
  obtain ⟨e1, e2⟩ := prefix_of_div a3 b3 hk
  have hxy : x = y := by
    refine chain_unique hc hx hy (p := Tile.start y) ?_ ?_ (Nat.le_refl _) (Tile.start_lt_stop y)
    · simp only [Tile.start]
      rw [show 15 - x.len = k + (15 - y.len) by omega, Nat.pow_add, ← Nat.mul_assoc]
      exact Nat.mul_le_mul_right _ (by rw [e2]; exact Nat.div_mul_le_self _ _)
    · simp only [Tile.start, Tile.stop]
      rw [show 15 - x.len = k + (15 - y.len) by omega, Nat.pow_add, ← Nat.mul_assoc]
      apply (Nat.mul_lt_mul_right (Nat.two_pow_pos _)).mpr
      rw [e2]; rw [← Nat.div_lt_iff_lt_mul (Nat.two_pow_pos k)]; omega
  subst hxy
  exact ⟨rfl, by omega⟩

theorem tiles_nodup {lens code} (h : build lens = .ok code) : (tilesFrom lens 15 1 0).Nodup := by
  obtain ⟨-, hc, -⟩ := build_tiles h
  have := chain_pairwise hc
  exact this.imp fun {x y} hxy hne => by subst hne; have := Tile.start_lt_stop x; omega

theorem tile_eq_of_sym {lens : List (BitVec 4)} (hl : lens.length ≤ 320) {x y}
    (hx : x ∈ tilesFrom lens 15 1 0) (hy : y ∈ tilesFrom lens 15 1 0) (he : (Tile.entry x).sym =
    (Tile.entry y).sym) : x = y := by
  obtain ⟨j, i, l, h0, h1, h2, rfl⟩ := (mem_tilesFrom _ _ _ _ _).mp hx
  obtain ⟨j', i', l', h0', h1', h2', rfl⟩ := (mem_tilesFrom _ _ _ _ _).mp hy
  have hi : i < lens.length := (List.getElem?_eq_some_iff.mp h1).1
  have hi' : i' < lens.length := (List.getElem?_eq_some_iff.mp h1').1
  have := congrArg BitVec.toNat he
  simp [Tile.entry] at this
  have : i = i' := by omega
  subst this
  rw [h1] at h1'; injection h1' with h1'; subst h1'
  have : j = j' := by omega
  subst this; rfl

end Sys2Proof.Machine
end

