-- ==== Sys2Proof/Tests/Slice0.lean ====
section
/-!
SUPPORT. The tests of slice 0: ill-formed elements are refused, words written out from the opcode table decode to their
rows, single steps give the values of the spec's vectors (V<n> of 95_test_vectors.md), and every statement's hypotheses are
met by a concrete state (`witness_<statement>`).
-/

namespace Sys2Proof.Tests

open Sys2Proof.Machine

-- One theorem after the other: each of the many kernel evaluations below would hold a thread of its own.
set_option Elab.async false

/-! ### Helpers -/

/-- The bits of a code value as the opcode table writes it, most significant first. -/
def msb : Nat → Nat → List Bool
  | 0, _ => []
  | n + 1, v => decide (v / 2 ^ n % 2 = 1) :: msb n v

/-- Bits written as digits. -/
def bits (ds : List Nat) : List Bool := ds.map (fun d => d == 1)

/-- Something of the next state, or a default where there is none. -/
def ofNext {α : Type} (d : α) (f : State → α) : Host.Outcome State Fault Refusal → α
  | .next t => f t
  | _ => d

/-- The end of a run as the vectors give it: cause, information, output, position, bit cursor, bytes held. -/
def summary (t : State) : Option Cause × List Byte × Nat × Nat × Nat :=
  (t.bd.err.map ErrRecord.cause, t.out, t.src.pos, bitpos t, t.hb.fill.toNat)

/-- A state in a fixed block's body after the literal 0x41 of `73 44 00 00` (V11, P2): eleven bits consumed. -/
def bodyState (bytes : List Byte) (e : Expect) : State where
  src := { bytes := bytes, pos := 2 }
  br := { cur := 0x44, rem := 5, eos := false }
  hb := { mem := [(0, 0x41)], cur := 1, fill := 1 }
  bd := { BlockDecoder.reset with
    phase := .fixedHuffmanBlock, bfinal := true, btype := 1, useFixed := true, dPresent := true, expect := e, runLen := 10 }
  out := [0x41]

/-- A state in a dynamic block's header, expecting `e`, the array of code lengths all `l`. -/
def headerState (e : Expect) (l : BitVec 4) (idx : BitVec 9) : State :=
  { State.reset with
    bd := { BlockDecoder.reset with
      phase := .dynamicHuffmanBlock, expect := e, idx := idx, codeLen := Vector.replicate 320 l } }

/-- A stored block's state, its lengths read, the data `bytes` ahead. -/
def storedState (bytes : List Byte) : State :=
  { State.reset with
    src := { bytes := bytes, pos := 0 }
    bd := { BlockDecoder.reset with phase := .storedBlock, bfinal := true, expect := .storedLen } }

theorem bodyState_reader (e : Expect) : ReaderOk (bodyState [0x73, 0x44, 0, 0] e) :=
  ⟨by show 2 ≤ 4; decide, fun _ => ⟨by show 0 < 2; decide, rfl⟩, fun h => by simp [bodyState] at h⟩

theorem history_one {s : State} (b : Byte) (hb : b ≠ Memory.blank) (hm : s.hb = { mem := [(0, b)], cur := 1, fill := 1 }) (ho : s.out = [b]) :
    HistoryOk s := by
  refine ⟨by rw [hm]; simp [Memory.wf, Config.capacity, hb], by rw [hm, ho]; rfl, by rw [hm, ho]; rfl, fun d h1 h2 => ?_⟩
  rw [hm] at h2
  have : d = 1 := by simp at h2; omega
  subst this
  simp [hm, ho, Memory.read]

theorem history_none {s : State} (hm : s.hb = { mem := [], cur := 0, fill := 0 }) (ho : s.out = []) : HistoryOk s := by
  refine ⟨by rw [hm]; decide, by rw [hm, ho]; decide, by rw [hm, ho]; decide, fun d h1 h2 => ?_⟩
  rw [hm] at h2
  simp at h2
  omega

theorem bodyState_safe : Safe (bodyState [0x73, 0x44, 0, 0] .litlen) where
  reader := bodyState_reader _
  history := history_one 0x41 (by decide) rfl rfl
  status := ⟨by simp [bodyState, BlockDecoder.reset], by simp [bodyState, BlockDecoder.reset],
    by simp [bodyState, BlockDecoder.reset], by simp [bodyState, BlockDecoder.reset], by simp [bodyState]⟩
  control := by simp [ControlOk, bodyState]

/-! ### Ill-formed elements are refused -/

theorem test_wf_kind : Instr.wf .header .eob = false ∧ Instr.wf .storedLen (.hlit 0) = false ∧
    Instr.wf .hlit (.hdist 0) = false ∧ Instr.wf .hdist (.hlit 0) = false ∧ Instr.wf .hclen (.cllen 0) = false ∧
    Instr.wf .cllen (.hclen 0) = false ∧ Instr.wf (.litlen fixedLLCode) .dist0 = false ∧
    Instr.wf (.dist fixedDCode) .len257 = false ∧ Instr.wf (.clsym fixedDCode false) .lit00 = false := by decide +kernel

/-- The dispatch of one block type is refused where the header says another, or has the other flag. -/
theorem test_wf_dispatch : Instr.wf (.dispatch true 1) (.btype2Dynamic true) = false ∧
    Instr.wf (.dispatch true 1) (.btype1Fixed false) = false ∧ Instr.wf (.dispatch true 1) (.btype1Fixed true) = true := by decide

/-- A symbol without a code in the table in force is refused: symbol 2 in the code of the lengths `[1,1]`. -/
theorem test_wf_symbol : Instr.wf (.litlen [⟨2, 0⟩, ⟨3, 1⟩]) .lit02 = false ∧ Instr.wf (.dist [⟨2, 0⟩, ⟨3, 1⟩]) .dist2 = false ∧
    Instr.wf (.clsym [⟨2, 0⟩, ⟨3, 1⟩] false) .cl2 = false ∧ Instr.wf (.litlen [⟨2, 0⟩, ⟨3, 1⟩]) .lit01 = true := by decide

/-- A first code-length symbol 16 carries no extra bits. -/
theorem test_wf_first : Instr.wf (.clsym [⟨2, 16⟩, ⟨3, 1⟩] true) (.cl16Repeat 1) = false ∧
    Instr.wf (.clsym [⟨2, 16⟩, ⟨3, 1⟩] false) (.cl16Repeat 1) = true := by decide

/-! ### Decoding: the rows' encodings, written out -/

/-- The `encoding` column of some LIT, EOB and LEN rows, the ends of each range of codes and each width of extra bits among them: width and bits of the code, width of the extra bits, and the
row's instruction where the first extra bit of the stream is 1 and the others are 0. -/
def litlenRows : List (Nat × Nat × Nat × Instr) :=
  List.flatten [
    [(8, 0b00110000, 0, .lit00), (8, 0b01110001, 0, .lit41), (8, 0b10111111, 0, .lit8F), (9, 0b110010000, 0, .lit90),
     (9, 0b111111111, 0, .litFF), (7, 0b0000000, 0, .eob), (7, 0b0000001, 0, .len257), (7, 0b0001000, 0, .len264),
     (7, 0b0001001, 1, .len265 1), (7, 0b0001101, 2, .len269 1), (7, 0b0010001, 3, .len273 1), (7, 0b0010101, 4, .len277 1),
     (7, 0b0010111, 4, .len279 1), (8, 0b11000000, 4, .len280 1), (8, 0b11000001, 5, .len281 1), (8, 0b11000101, 0, .len285)],
    [(8, 0b11000111, 0, .len287Reserved)]]

/-- The same of the DIST rows. -/
def distanceRows : List (Nat × Nat × Nat × Instr) :=
  List.flatten [
    [(5, 0b00000, 0, .dist0), (5, 0b00001, 0, .dist1), (5, 0b00010, 0, .dist2), (5, 0b00011, 0, .dist3),
     (5, 0b00100, 1, .dist4 1), (5, 0b00101, 1, .dist5 1), (5, 0b00110, 2, .dist6 1), (5, 0b00111, 2, .dist7 1),
     (5, 0b01000, 3, .dist8 1), (5, 0b01001, 3, .dist9 1), (5, 0b01010, 4, .dist10 1), (5, 0b01011, 4, .dist11 1),
     (5, 0b01100, 5, .dist12 1), (5, 0b01101, 5, .dist13 1), (5, 0b01110, 6, .dist14 1), (5, 0b01111, 6, .dist15 1)],
    [(5, 0b10000, 7, .dist16 1), (5, 0b10001, 7, .dist17 1), (5, 0b10010, 8, .dist18 1), (5, 0b10011, 8, .dist19 1),
     (5, 0b10100, 9, .dist20 1), (5, 0b10101, 9, .dist21 1), (5, 0b10110, 10, .dist22 1), (5, 0b10111, 10, .dist23 1),
     (5, 0b11000, 11, .dist24 1), (5, 0b11001, 11, .dist25 1), (5, 0b11010, 12, .dist26 1), (5, 0b11011, 12, .dist27 1),
     (5, 0b11100, 13, .dist28 1), (5, 0b11101, 13, .dist29 1), (5, 0b11110, 0, .dist30Reserved), (5, 0b11111, 0, .dist31Reserved)]]

theorem test_decode_litlen : litlenRows.all (fun (n, v, e, i) =>
    decide (decode listBits (.litlen fixedLLCode) (msb n v ++ ((List.range e).map (fun k => k == 0) ++ [true])) =
      .ok i [true])) = true := by decide +kernel

theorem test_decode_dist : distanceRows.all (fun (n, v, e, i) =>
    decide (decode listBits (.dist fixedDCode) (msb n v ++ ((List.range e).map (fun k => k == 0) ++ [true])) =
      .ok i [true])) = true := by decide +kernel

/-- HDR `ftt` (R92), STORED_LEN_NLEN of V7 (R94), HLIT, HDIST, HCLEN (R95), CLLEN (R96): bit 0 of a field first. -/
theorem test_decode_fields :
    decode listBits .header (bits [1, 0, 1]) = .ok (.hdr true 2) [] ∧
    decode listBits .storedLen (bytesToBits [0x05, 0x00, 0xFA, 0xFF]) = .ok (.storedLenNlen 5 0xFFFA) [] ∧
    decode listBits .hlit (bits [0, 0, 0, 1, 1]) = .ok (.hlit 24) [] ∧
    decode listBits .hdist (bits [1, 0, 0, 0, 0]) = .ok (.hdist 1) [] ∧
    decode listBits .hclen (bits [0, 1, 1, 0]) = .ok (.hclen 6) [] ∧
    decode listBits .cllen (bits [0, 0, 1]) = .ok (.cllen 4) [] := by decide +kernel

/-- The code-length symbols of V64b: `0 -> 0`, `18 -> 10`, `16 -> 110`, `17 -> 111`, then the extra bits (R105). -/
theorem test_decode_clsym : ∃ code, build [1, 0, 0, 0, 0, 0, 0, 0, 0, 0, 0, 0, 0, 0, 0, 0, 3, 3, 2] = .ok code ∧
    decode listBits (.clsym code false) (bits [0]) = .ok .cl0 [] ∧
    decode listBits (.clsym code false) (bits [1, 1, 0, 1, 0]) = .ok (.cl16Repeat 1) [] ∧
    decode listBits (.clsym code true) (bits [1, 1, 0, 1, 0]) = .ok (.cl16Repeat 0) (bits [1, 0]) ∧
    decode listBits (.clsym code false) (bits [1, 1, 1, 0, 1, 1]) = .ok (.cl17Zeros 6) [] ∧
    decode listBits (.clsym code false) (bits [1, 0, 1, 0, 0, 0, 0, 0, 1]) = .ok (.cl18Zeros 65) [] :=
  ⟨[⟨0b10, 0⟩, ⟨0b110, 18⟩, ⟨0b1110, 16⟩, ⟨0b1111, 17⟩], by decide +kernel⟩

/-- `match` numbers of the opcode table, as `decodeTableWord` gets them. -/
theorem test_table_words : decodeTableWord 3 6 = some (.btype3Reserved false) ∧ decodeTableWord 8 0x30 = some .lit00 ∧
    decodeTableWord 16 0x190 = some .lit90 ∧ decodeTableWord 8 0xC0 = some (.len280 0) ∧ decodeTableWord 5 29 = some (.dist29 0) ∧
    decodeTableWord 16 0x18F = none := by decide +kernel

/-- Placed where the next step fetches, a word is run: LIT_41 puts its byte out, BTYPE1_FIXED opens a block. -/
theorem test_fetch_word :
    ofNext [] State.out (step (State.reset.withFetchWord 8 0x71)) = [0x41] ∧
    ofNext .failed (fun t => t.bd.phase) (step (State.reset.withFetchWord 8 2)) = .fixedHuffmanBlock ∧
    ofNext 0 (fun t => t.bd.runLen) (step (State.reset.withFetchWord 8 0xC5)) = 258 ∧
    ofNext none (fun t => t.bd.err.map ErrRecord.cause) (step (State.reset.withFetchWord 5 0)) = some .invalidLengthOrDistance ∧
    ofNext 0 (fun t => t.bd.nlen) (step (State.reset.withFetchWord 32 0xFFFF0000)) = 0xFFFF := by decide +kernel

/-! ### The components (V1 to V6, V10, V20 to V38) -/

theorem test_build_accepts : build [1, 1] = .ok [⟨0b10, 0⟩, ⟨0b11, 1⟩] ∧
    build [2, 2, 1, 0, 0, 0] = .ok [⟨0b10, 2⟩, ⟨0b110, 0⟩, ⟨0b111, 1⟩] ∧
    build [3, 3, 3, 3, 3, 2, 4, 4] = .ok [⟨0b100, 5⟩, ⟨0b1010, 0⟩, ⟨0b1011, 1⟩, ⟨0b1100, 2⟩, ⟨0b1101, 3⟩, ⟨0b1110, 4⟩,
      ⟨0b11110, 6⟩, ⟨0b11111, 7⟩] := by decide +kernel

theorem test_build_rejects : build [1, 1, 1] = .error .overfull ∧ build [1, 2, 2, 2] = .error .overfull ∧
    build [0, 2, 0] = .error .underfull ∧ build [0, 1, 0, 2] = .error .underfull ∧ build [] = .error .underfull ∧
    build [1] = .error .underfull := by decide +kernel

/-- V21: `readUint(3)` on `B4 01` is 4, then `readUint(7)` is 54. -/
theorem test_readUint : (match readUint 3 (startOn [0xB4, 0x01]) with
    | .ok a s => (match readUint 7 s with
      | .ok b t => (a, bitPosition s, b, bitPosition t, t.src.pos, t.br.rem.toNat)
      | .stop _ _ => default)
    | .stop _ _ => default) = (4, 3, 54, 2, 2, 6) := by decide +kernel

/-- V26, V27: `readUint(0)` reads nothing; `readUint(16)` is refused before any bit. -/
theorem test_readUint_range : readUint 0 (startOn []) = .ok 0 (startOn []) ∧
    readUint 16 (startOn [1, 2]) = .stop (.argOutOfRange 16) (startOn [1, 2]) ∧
    readStatus (raiseReject (.argOutOfRange 16) (startOn [1, 2])) = ⟨.failed, 3, 0x40, 16⟩ := ⟨rfl, rfl, rfl⟩

/-- V10: `copy(1, 10)` behind the one byte 0x41. -/
theorem test_copy_overlaps : (fun t : State => (t.out, t.hb.cur.toNat, t.hb.fill.toNat))
    (copy 1 10 (append 0x41 State.reset)) = (List.replicate 10 0x41, 11, 11) := by decide +kernel

/-- V42f, V42e: distance 0, and a distance on an empty buffer. -/
theorem test_copy_checks : readStatus (copy 0 1 State.reset) = ⟨.failed, 1, 0x0A, 0⟩ ∧
    readStatus (copy 1 1 State.reset) = ⟨.failed, 1, 0x0A, 0⟩ := by decide +kernel

/-- Writing what an unlisted index reads as removes the entry; another byte is listed in its place (R65). -/
theorem test_write_canonical : Memory.write [(1, 7), (3, 8)] 1 Memory.blank = [(3, 8)] ∧
    Memory.write [(1, 7), (3, 8)] 2 Memory.blank = [(1, 7), (3, 8)] ∧ Memory.write [(1, 7), (3, 8)] 2 9 = [(1, 7), (2, 9), (3, 8)] := by
  decide

/-- The cursor wraps at the capacity and the fill stays (R31, R177). -/
theorem test_append_wraps : (append 7 { State.reset with hb := ⟨[], 32767, 32768⟩ }).hb = ⟨[(32767, 7)], 0, 32768⟩ := by decide +kernel

/-! ### One step -/

/-- V12b's header: three bits of `06`. -/
theorem test_step_hdr : ofNext (true, 0, 0) (fun t => (t.bd.bfinal, t.bd.btype, bitpos t)) (step (startOn [0x06])) =
    (false, 3, 3) := by decide +kernel

/-- V22: no byte at all. -/
theorem test_step_empty : ofNext (none, []) (fun t => (t.bd.err, t.out)) (step (startOn [])) =
    (some ⟨.truncated, .unexpectedEnd, 0⟩, []) := by decide +kernel

/-- V7, V8, V52 from the stored lengths on. -/
theorem test_step_stored : ofNext default summary (step (storedState [0x05, 0x00, 0xFA, 0xFF, 0x48, 0x65, 0x6C, 0x6C, 0x6F])) =
      (none, [0x48, 0x65, 0x6C, 0x6C, 0x6F], 9, 72, 5) ∧
    ofNext default summary (step (storedState [0x05, 0x00, 0xFB, 0xFF, 0x48, 0x65, 0x6C, 0x6C, 0x6F])) =
      (some .storedLenMismatch, [], 4, 32, 0) ∧
    ofNext default summary (step (storedState [0x05, 0x00, 0xFA, 0xFF, 0x48, 0x65, 0x65])) =
      (some .unexpectedEnd, [0x48, 0x65, 0x65], 7, 56, 3) := by decide +kernel

/-- V54: padding bits all 1 are ignored. -/
theorem test_exec_align : ofNext (0, 1) (fun t => (bitpos t, t.br.rem)) (exec (.btype0Stored true)
    { startOn [0xF9, 1] with src.pos := 1, br.cur := 0xF9, br.rem := 5 }) = (8, 0) := by decide +kernel

/-- P2 from its length symbol on: LEN_264 gives run length 10; DIST_0 copies it. -/
theorem test_step_match :
    ofNext (0, 0) (fun t => (t.bd.runLen.toNat, bitpos t)) (step (bodyState [0x73, 0x44, 0, 0] .litlen)) = (10, 18) ∧
    ofNext [] State.out (exec .dist0 (bodyState [0x73, 0x44, 0, 0] .dist)) = List.replicate 11 0x41 := by decide +kernel

/-- The bases of the LEN rows of the opcode table, one extra bit set where there is one. -/
def lengthBases : List (Instr × Nat) :=
  List.flatten [
    [(.len257, 3), (.len258, 4), (.len259, 5), (.len260, 6),
     (.len261, 7), (.len262, 8), (.len263, 9), (.len264, 10),
     (.len265 1, 12), (.len266 1, 14), (.len267 1, 16), (.len268 1, 18),
     (.len269 1, 20), (.len270 1, 24), (.len271 1, 28), (.len272 1, 32)],
    [(.len273 1, 36), (.len274 1, 44), (.len275 1, 52), (.len276 1, 60),
     (.len277 1, 68), (.len278 1, 84), (.len279 1, 100), (.len280 1, 116),
     (.len281 1, 132), (.len282 1, 164), (.len283 1, 196), (.len284 1, 228),
     (.len285, 258)]]

/-- The same of the DIST rows. -/
def distanceBases : List (Instr × Nat) :=
  List.flatten [
    [(.dist0, 1), (.dist1, 2), (.dist2, 3), (.dist3, 4),
     (.dist4 1, 6), (.dist5 1, 8), (.dist6 1, 10), (.dist7 1, 14),
     (.dist8 1, 18), (.dist9 1, 26), (.dist10 1, 34), (.dist11 1, 50),
     (.dist12 1, 66), (.dist13 1, 98), (.dist14 1, 130), (.dist15 1, 194)],
    [(.dist16 1, 258), (.dist17 1, 386), (.dist18 1, 514), (.dist19 1, 770),
     (.dist20 1, 1026), (.dist21 1, 1538), (.dist22 1, 2050), (.dist23 1, 3074),
     (.dist24 1, 4098), (.dist25 1, 6146), (.dist26 1, 8194), (.dist27 1, 12290),
     (.dist28 1, 16386), (.dist29 1, 24578)]]

theorem test_exec_lengths : lengthBases.all (fun (i, len) =>
    ofNext 0 (fun t => t.bd.runLen.toNat) (exec i (bodyState [0x73, 0x44, 0, 0] .litlen)) == len) = true := by decide +kernel

/-- A distance is the only one a buffer of so many bytes just allows: one byte fewer, and it is refused. -/
theorem test_exec_distances : distanceBases.all (fun (i, d) =>
    ofNext none (fun t => t.bd.err.map ErrRecord.cause) (exec i
      { bodyState [0x73, 0x44, 0, 0] .dist with hb := ⟨[], 0, BitVec.ofNat 16 (d - 1)⟩ }) == some .invalidLengthOrDistance &&
    ofNext 0 (fun t => t.out.length) (exec i
      { bodyState [0x73, 0x44, 0, 0] .dist with hb := ⟨[], 0, BitVec.ofNat 16 d⟩ }) == 11) = true := by decide +kernel

/-- V80a, V81a: the reserved symbols; V69: no distance code. -/
theorem test_exec_body_failures :
    ofNext ⟨.done, 0, 0, 0⟩ readStatus (exec .len286Reserved (bodyState [] .litlen)) = ⟨.failed, 1, 0x07, 0⟩ ∧
    ofNext ⟨.done, 0, 0, 0⟩ readStatus (exec .dist30Reserved (bodyState [] .dist)) = ⟨.failed, 1, 0x09, 0⟩ ∧
    ofNext ⟨.done, 0, 0, 0⟩ readStatus (exec .len258 (headerState .litlen 0 0)) = ⟨.failed, 1, 0x08, 0⟩ ∧
    ofNext ⟨.done, 0, 0, 0⟩ readStatus (exec (.btype3Reserved true) State.reset) = ⟨.failed, 1, 0x01, 0⟩ := by decide +kernel

/-- V61: HCLEN 0 and a fourth CLLEN of 0 leave the code-length code without a symbol; V63: three of length 1. -/
theorem test_exec_cllen :
    ofNext ⟨.done, 0, 0, 0⟩ readStatus (exec (.cllen 0) { headerState .cllen 0 0 with bd.clPos := 3 }) = ⟨.failed, 1, 0x04, 0⟩ ∧
    ofNext ⟨.done, 0, 0, 0⟩ readStatus (exec (.cllen 0) { headerState .cllen 0 0 with
      bd.clPos := 3, bd.clLen := ((Vector.replicate 19 0).set 16 1).set 17 1 |>.set 18 1 }) = ⟨.failed, 1, 0x03, 0⟩ ∧
    ofNext 0 (fun t => t.bd.clLen[8].toNat) (exec (.cllen 5) { headerState .cllen 0 0 with bd.clPos := 4, bd.hclen := 2 }) = 5 := by decide +kernel

/-- R215 to R219: a length, a repeat of the length before, zeros; V64a's repeat without one; V65's run past the count. -/
theorem test_exec_clsym :
    ofNext (0, 0) (fun t => (t.bd.codeLen[7].toNat, t.bd.idx.toNat)) (exec .cl9 (headerState .clsym 4 7)) = (9, 8) ∧
    ofNext (0, 0, 0) (fun t => (t.bd.codeLen[8].toNat, t.bd.codeLen[13].toNat, t.bd.idx.toNat)) (exec (.cl16Repeat 3)
      { headerState .clsym 4 8 with bd.codeLen := (Vector.replicate 320 4).set 7 6 }) = (6, 6, 14) ∧
    ofNext (1, 0, 0) (fun t => (t.bd.codeLen[144].toNat, t.bd.codeLen[145].toNat, t.bd.idx.toNat)) (exec (.cl18Zeros 127) (headerState .clsym 4 7)) =
      (0, 4, 145) ∧
    ofNext ⟨.done, 0, 0, 0⟩ readStatus (exec (.cl16Repeat 0) (headerState .clsym 4 0)) = ⟨.failed, 1, 0x05, 0⟩ ∧
    ofNext ⟨.done, 0, 0, 0⟩ readStatus (exec (.cl18Zeros 127) (headerState .clsym 0 138)) = ⟨.failed, 1, 0x06, 0⟩ := by decide +kernel

/-- V66: the last run leaves all lengths 0, and the literal/length code is under-full. -/
theorem test_exec_split : ofNext ⟨.done, 0, 0, 0⟩ readStatus (exec (.cl18Zeros 109) (headerState .clsym 0 138)) =
    ⟨.failed, 1, 0x04, 1⟩ := by decide +kernel

/-! ### The statements' hypotheses can be met -/

/-- A next state with a property, from its computation. -/
theorem next_of {o : Host.Outcome State Fault Refusal} (p : State → Bool) (h : ofNext false p o = true) :
    ∃ t, o = .next t ∧ p t = true := by
  cases o with
  | next t => exact ⟨t, rfl, h⟩
  | fault r => exact absurd h (by simp [ofNext])
  | refused r => exact absurd h (by simp [ofNext])

theorem reader_of {s : State} (h : s.src.pos ≤ s.src.bytes.length ∧
    (s.br.rem ≠ 0 → 0 < s.src.pos ∧ s.src.bytes[s.src.pos - 1]? = some s.br.cur) ∧ s.br.eos = false) : ReaderOk s :=
  ⟨h.1, h.2.1, fun he => absurd he (by simp [h.2.2])⟩

/-- The reader one byte into `[b, 0x5A]`, `k` bits of the byte `b` left. -/
def midByte (b : Byte) (k : BitVec 3) : State :=
  { startOn [b, 0x5A] with src := { bytes := [b, 0x5A], pos := 1 }, br := { cur := b, rem := k, eos := false } }

/-- A dynamic header's state one code length before its count, 258: the literals 0 and 256 coded where `some` says. -/
def lastLength (l : BitVec 4) : State :=
  { headerState .clsym 0 257 with bd.codeLen := ((Vector.replicate 320 0).set 0 l).set 256 l }

/-- One code length before the count of a header with three distance lengths, the two before it 1. -/
def overState : State :=
  { lastLength 1 with bd := { (lastLength 1).bd with
    hdist := 2, idx := 259, codeLen := (((lastLength 1).bd.codeLen).set 257 1).set 258 1 } }

/-- The wanted run length and the bytes held set. -/
def matchState (n : BitVec 9) (fill : BitVec 16) : State :=
  { bodyState [0x73, 0x44, 0, 0] .dist with bd.runLen := n, hb.fill := fill }

/-- A state that no run reaches: each table holds the one symbol `sym`, above the alphabet. -/
def aboveState (e : Expect) (sym : BitVec 9) : State :=
  { startOn [0] with bd := { BlockDecoder.reset with
      expect := e, clCode := [⟨2, sym⟩], llCode := [⟨2, sym⟩], dCode := [⟨2, sym⟩] } }

theorem witness_EveryStepKeepsSafe : Safe (bodyState [0x73, 0x44, 0, 0] .litlen) := bodyState_safe

theorem witness_EndedRunsDoNothing : (raise .unexpectedEnd 0 State.reset).bd.phase = .failed ∧
    (endOfBlock (bodyState [] .litlen)).bd.phase = .done := ⟨rfl, rfl⟩

theorem witness_StepRunsTheDecodedInstruction :
    ReaderOk (bodyState [0x73, 0x44, 0, 0] .litlen) ∧ (bodyState [0x73, 0x44, 0, 0] .litlen).br.eos = false ∧
    ended (bodyState [0x73, 0x44, 0, 0] .litlen) = false ∧
    decode listBits (ctxOf (bodyState [0x73, 0x44, 0, 0] .litlen)) (bitsAhead (bodyState [0x73, 0x44, 0, 0] .litlen)) =
      .ok .len264 (List.replicate 14 false) := ⟨bodyState_reader _, rfl, rfl, by decide +kernel⟩

/-- Three bits missing; two missing, the flag read; NLEN missing, LEN read; a table with a symbol above its alphabet; and an
empty table, which no symbol is found in. -/
theorem witness_StepRaisesWhatTheDecoderRejects :
    (ReaderOk { midByte 0x80 1 with src := { bytes := [0x80], pos := 1 } } ∧
      decode listBits .header (bitsAhead { midByte 0x80 1 with src := { bytes := [0x80], pos := 1 } }) =
        .stop (.unexpectedEnd (.bfinal true)) []) ∧
    (ReaderOk (storedState [5, 0]) ∧ decode listBits .storedLen (bitsAhead (storedState [5, 0])) =
      .stop (.unexpectedEnd (.len 5)) []) ∧
    (ReaderOk (aboveState .litlen 288) ∧ (aboveState .litlen 288).br.eos = false ∧ ended (aboveState .litlen 288) = false ∧
      decode listBits (ctxOf (aboveState .litlen 288)) (bitsAhead (aboveState .litlen 288)) =
        .stop .valueRange (List.replicate 7 false)) ∧
    (ReaderOk (startOn []) ∧ (startOn []).br.eos = false ∧ ended (startOn []) = false ∧
      decode listBits (ctxOf (startOn [])) (bitsAhead (startOn [])) = .stop (.unexpectedEnd .nothing) []) ∧
    (ReaderOk { startOn [0, 0] with bd.expect := .litlen } ∧
      decode listBits (ctxOf { startOn [0, 0] with bd.expect := .litlen })
        (bitsAhead { startOn [0, 0] with bd.expect := .litlen }) = .stop .decodeOverrun [false]) :=
  ⟨⟨reader_of (by decide), by decide +kernel⟩, ⟨reader_of (by decide), by decide +kernel⟩,
    ⟨reader_of (by decide), rfl, rfl, by decide +kernel⟩,
    ⟨reader_of (by decide), rfl, rfl, rfl⟩, reader_of (by decide), by decide +kernel⟩

theorem witness_EncodedElementsDecodeBack : ctxAccepted (.litlen fixedLLCode) ∧ Instr.wf (.litlen fixedLLCode) (.len284 31) = true ∧
    ctxAccepted (.dist fixedDCode) ∧ Instr.wf (.dist fixedDCode) (.dist29 8191) = true ∧ ctxAccepted .storedLen ∧
    Instr.wf .storedLen (.storedLenNlen 0 0xFFFF) = true :=
  ⟨acceptedCode_fixedLL, by decide +kernel, acceptedCode_fixedD, by decide +kernel, trivial, rfl⟩

theorem witness_DecodedBitsAreTheEncoding : ctxAccepted (.dist fixedDCode) ∧
    decode listBits (.dist fixedDCode) (bits [0, 0, 1, 0, 0, 1, 0]) = .ok (.dist4 1) [false] :=
  ⟨acceptedCode_fixedD, by decide +kernel⟩

/-- The ends of the four ranges of codes. -/
theorem witness_FixedLiteralLengthCodes : formOf .lit00 = .symbol .litlen 0 0 0 ∧ formOf .lit8F = .symbol .litlen 143 0 0 ∧
    formOf .lit90 = .symbol .litlen 144 0 0 ∧ formOf .litFF = .symbol .litlen 255 0 0 ∧ formOf .eob = .symbol .litlen 256 0 0 ∧
    formOf (.len279 15) = .symbol .litlen 279 4 15 ∧ formOf (.len280 15) = .symbol .litlen 280 4 15 ∧
    formOf .len287Reserved = .symbol .litlen 287 0 0 := ⟨rfl, rfl, rfl, rfl, rfl, rfl, rfl, rfl⟩

theorem witness_FixedDistanceCodes : formOf .dist0 = .symbol .dist 0 0 0 ∧ formOf (.dist29 8191) = .symbol .dist 29 13 8191 ∧
    formOf .dist31Reserved = .symbol .dist 31 0 0 := ⟨rfl, rfl, rfl⟩

/-- The three cases: the end seen; no bit left; the last bit of a byte, and the first of the next. -/
theorem witness_ReadBitDeliversTheStream :
    ReaderOk { startOn [] with br := { cur := 0, rem := 0, eos := true } } ∧
    (ReaderOk (startOn []) ∧ 8 * (startOn []).src.bytes.length ≤ bitpos (startOn [])) ∧
    (ReaderOk (midByte 0x80 1) ∧ bitpos (midByte 0x80 1) < 8 * (midByte 0x80 1).src.bytes.length) ∧
    (ReaderOk (midByte 0x80 0) ∧ bitpos (midByte 0x80 0) < 8 * (midByte 0x80 0).src.bytes.length) :=
  ⟨⟨Nat.le_refl 0, fun h => absurd rfl h, fun _ => ⟨rfl, rfl⟩⟩, ⟨reader_of (by decide), by decide⟩,
    ⟨reader_of (by decide), by decide⟩, ⟨reader_of (by decide), by decide⟩⟩

/-- 16 bits asked for; 15 of 15 at hand; 15 of 14. -/
theorem witness_ReadUintIsLeastSignificantFirst : ReaderOk (midByte 0x80 7) ∧ 15 < 16 ∧
    15 ≤ (bitsAhead (midByte 0x80 7)).length ∧ ReaderOk (midByte 0x80 6) ∧ (bitsAhead (midByte 0x80 6)).length < 15 :=
  ⟨reader_of (by decide), by decide, by decide, reader_of (by decide), by decide⟩

theorem witness_ConsumedBitsAreAccountedFor : ReaderOk (midByte 0x80 7) ∧ (midByte 0x80 7).br.eos = false ∧
    0 ≤ (bitsAhead (midByte 0x80 7)).length ∧ 15 ≤ (bitsAhead (midByte 0x80 7)).length :=
  ⟨reader_of (by decide), rfl, by decide, by decide⟩

theorem witness_BuiltTablesHoldEachCodedSymbolOnce : ([2, 2, 1, 0] : List (BitVec 4)).length ≤ 320 ∧
    build [2, 2, 1, 0] = .ok [⟨0b10, 2⟩, ⟨0b110, 0⟩, ⟨0b111, 1⟩] := ⟨by decide, by decide +kernel⟩

theorem witness_CodeValuesAreCanonical : build [2, 2, 1, 0] = .ok [⟨0b10, 2⟩, ⟨0b110, 0⟩, ⟨0b111, 1⟩] ∧
    (⟨0b111, 1⟩ : Entry) ∈ ([⟨0b10, 2⟩, ⟨0b110, 0⟩, ⟨0b111, 1⟩] : Code) ∧
    ([2, 2, 1, 0] : List (BitVec 4))[(1 : BitVec 9).toNat]? = some 2 := ⟨by decide +kernel, by decide, by decide⟩

theorem witness_BuiltCodesArePrefixFree : build [1, 1] = .ok [⟨2, 0⟩, ⟨3, 1⟩] ∧
    (⟨3, 1⟩ : Entry) ∈ ([⟨2, 0⟩, ⟨3, 1⟩] : Code) ∧ (3 : BitVec 16).toNat = (3 : BitVec 16).toNat / 2 ^ 0 :=
  ⟨by decide +kernel, by decide, by decide⟩

theorem witness_SymbolDecodingEndsWithinFifteenBits : build [1, 1] = .ok [⟨2, 0⟩, ⟨3, 1⟩] ∧
    decodeSymbolFrom listBits [⟨2, 0⟩, ⟨3, 1⟩] [] = .stop (.unexpectedEnd .nothing) [] ∧
    15 ≤ (List.replicate 15 false).length := ⟨by decide +kernel, rfl, by decide⟩

theorem witness_EmittedBytesKeepTheWindow : HistoryOk State.reset ∧ HistoryOk (bodyState [] .litlen) :=
  ⟨history_none rfl rfl, history_one 0x41 (by decide) rfl rfl⟩

theorem witness_CopyRepeatsThePrecedingBytes : HistoryOk (bodyState [] .dist) ∧ 1 ≤ 1 ∧
    1 ≤ (bodyState [] .dist).hb.fill.toNat := ⟨history_one 0x41 (by decide) rfl rfl, by decide, by decide⟩

theorem witness_CopyChecksTheDistanceFirst : (0 = 0 ∨ (bodyState [] .dist).hb.fill.toNat < 0) ∧
    (2 = 0 ∨ (bodyState [] .dist).hb.fill.toNat < 2) := by decide

/-- The nearest distance, and the farthest that the register could ever hold, in a state that no run reaches. -/
theorem witness_CopyReadsOneByteAfterAnother : 1 ≤ (bodyState [] .dist).hb.fill.toNat ∧
    65535 ≤ ({ State.reset with hb := ⟨[], 0, 65535⟩ } : State).hb.fill.toNat := by decide

/-- Three bits at hand; two. -/
theorem witness_HeaderStepReadsThreeBits :
    (ReaderOk (startOn [0x06]) ∧ (startOn [0x06]).bd.expect = .header ∧ ended (startOn [0x06]) = false ∧
      bitsAhead (startOn [0x06]) = false :: true :: true :: List.replicate 5 false) ∧
    ReaderOk { midByte 0xC0 2 with src := { bytes := [0xC0], pos := 1 } } ∧
    (bitsAhead { midByte 0xC0 2 with src := { bytes := [0xC0], pos := 1 } }).length < 3 :=
  ⟨⟨reader_of (by decide), rfl, rfl, rfl⟩, reader_of (by decide), by decide⟩

theorem witness_StoredBlockAligns : ReaderOk (midByte 0xF9 5) ∧ (midByte 0xF9 5).br.eos = false ∧
    ReaderOk (midByte 0xF9 0) := ⟨reader_of (by decide), rfl, reader_of (by decide)⟩

theorem witness_DispatchIsOnTheTypeAlone (t : BitVec 2) :
    ({ State.reset with bd := { BlockDecoder.reset with btype := t, expect := .dispatch } } : State).bd.expect = .dispatch ∧
    ended { State.reset with bd := { BlockDecoder.reset with btype := t, expect := .dispatch } } = false := ⟨rfl, rfl⟩

/-- No data; all of it; one byte missing. -/
theorem witness_StoredDataIsCopied : ReaderOk (storedState [1, 2, 3]) ∧ (storedState [1, 2, 3]).br.eos = false ∧
    (storedState [1, 2, 3]).br.rem = 0 ∧ (0 : BitVec 16) ^^^ 0xFFFF = 0xFFFF ∧ (3 : BitVec 16) ^^^ 0xFFFF = 0xFFFC ∧
    (3 : BitVec 16).toNat ≤ ((storedState [1, 2, 3]).src.bytes.drop (storedState [1, 2, 3]).src.pos).length ∧
    (4 : BitVec 16) ^^^ 0xFFFF = 0xFFFB ∧
    ((storedState [1, 2, 3]).src.bytes.drop (storedState [1, 2, 3]).src.pos).length < (4 : BitVec 16).toNat :=
  ⟨reader_of (by decide), by decide⟩

theorem witness_StoredLengthMismatchFails : (5 : BitVec 16) ^^^ 0xFFFF ≠ 0xFFFB := by decide

/-- The first of 19 lengths, and the last but one. -/
theorem witness_CodeLengthCodeLengthsFollowTheScanOrder : (0 : BitVec 5).toNat + 1 < countCl 0 ∧
    (17 : BitVec 5).toNat + 1 < countCl 15 := by decide

/-- The last of 4 lengths: two codes of length 1, three, none. -/
theorem witness_LastCodeLengthCodeLengthBuilds : (3 : BitVec 5).toNat + 1 = countCl 0 ∧
    build ((((Vector.replicate 19 0).set 17 1).setIfInBounds 0 1 : Vector (BitVec 3) 19).toList.map (BitVec.setWidth 4)) =
      .ok [⟨2, 0⟩, ⟨3, 17⟩] ∧
    build (((((Vector.replicate 19 0).set 17 1).set 18 1).setIfInBounds 0 1 : Vector (BitVec 3) 19).toList.map (BitVec.setWidth 4)) =
      .error .overfull ∧
    build (((Vector.replicate 19 0).setIfInBounds 0 0 : Vector (BitVec 3) 19).toList.map (BitVec.setWidth 4)) =
      .error .underfull := by decide +kernel

/-- A run that just stays below the count: 137 zeros up to entry 256 of 258. -/
theorem witness_CodeLengthSymbolsWriteTheirRun : formOf (.cl18Zeros 126) = .symbol .clsym 18 7 126 ∧
    (headerState .clsym 4 120).bd.idx.toNat + (runOf (headerState .clsym 4 120) 18 126).1 < codeLenCount (headerState .clsym 4 120) ∧
    formOf (.cl16Repeat 0) = .symbol .clsym 16 2 0 ∧ (headerState .clsym 4 1).bd.idx ≠ 0 ∧
    (headerState .clsym 4 1).bd.idx.toNat + (runOf (headerState .clsym 4 1) 16 0).1 < codeLenCount (headerState .clsym 4 1) := by decide

theorem witness_RunsPastTheCountFail : formOf (.cl18Zeros 127) = .symbol .clsym 18 7 127 ∧
    (headerState .clsym 4 121).bd.idx.toNat < codeLenCount (headerState .clsym 4 121) ∧
    codeLenCount (headerState .clsym 4 121) < (headerState .clsym 4 121).bd.idx.toNat + (runOf (headerState .clsym 4 121) 18 127).1 := by
  decide

theorem witness_RepeatWithoutPreviousFails : (headerState .clsym 4 0).bd.idx = 0 ∧
    decodeSymbolFrom listBits [⟨2, 16⟩, ⟨3, 0⟩] [false, true] = .ok 16 [true] := ⟨rfl, by decide +kernel⟩

theorem witness_LastCodeLengthBuildsTheCodes_count (l v : BitVec 4) : formOf .cl1 = .symbol .clsym 1 0 0 ∧
    (lastLength l).bd.idx.toNat + (runOf (lastLength l) v.toNat 0).1 = codeLenCount (lastLength l) := by
  refine ⟨rfl, ?_⟩
  rw [runOf, if_pos (by omega)]
  rfl

/-- The six ends: three literal/length codes of length 1, and none; no distance code; three distance codes of length 1; one
distance length 2; one of 1. -/
theorem witness_LastCodeLengthBuildsTheCodes :
    (codeLenCount overState = 260 ∧ overState.bd.idx.toNat + (runOf overState 1 0).1 = 260 ∧
      build ((withRun overState (runOf overState 1 0)).bd.codeLen.toList.take 257) = .ok [⟨2, 0⟩, ⟨3, 256⟩] ∧
      ((withRun overState (runOf overState 1 0)).bd.codeLen.toList.drop 257).take 3 = [1, 1, 1] ∧
      build (padDistLens [1, 1, 1]) = .error .overfull) ∧
    build ((withRun { lastLength 1 with bd.codeLen := (lastLength 1).bd.codeLen.set 7 1 } (1, 0)).bd.codeLen.toList.take 257) =
      .error .overfull ∧
    build ((withRun (lastLength 0) (runOf (lastLength 0) 1 0)).bd.codeLen.toList.take 257) = .error .underfull ∧
    (build ((withRun (lastLength 1) (runOf (lastLength 1) 0 0)).bd.codeLen.toList.take 257) = .ok [⟨2, 0⟩, ⟨3, 256⟩] ∧
      ((withRun (lastLength 1) (runOf (lastLength 1) 0 0)).bd.codeLen.toList.drop 257).take 1 = [0]) ∧
    (((withRun (lastLength 1) (runOf (lastLength 1) 2 0)).bd.codeLen.toList.drop 257).take 1 = [2] ∧
      build (padDistLens [2]) = .error .underfull) ∧
    (((withRun (lastLength 1) (runOf (lastLength 1) 1 0)).bd.codeLen.toList.drop 257).take 1 = [1] ∧
      build (padDistLens [1]) = .ok [⟨2, 0⟩, ⟨3, 31⟩]) := by decide +kernel

/-- The single code in slot 0, in slot 30 and in slot 31; two codes. -/
theorem witness_SingleDistanceCodesArePadded :
    (∀ j, j < 1 → ([1] : List (BitVec 4))[j]? = some (if j = 0 then 1 else 0)) ∧
    (∀ j, j < 31 → (List.replicate 30 0 ++ [1] : List (BitVec 4))[j]? = some (if j = 30 then 1 else 0)) ∧
    (∀ j, j < 32 → (List.replicate 31 0 ++ [1] : List (BitVec 4))[j]? = some (if j = 31 then 1 else 0)) ∧
    ([1, 1] : List (BitVec 4)).filter (fun l => l ≠ 0) ≠ [1] := by decide

theorem witness_LiteralsAreEmitted : formOf .lit00 = .symbol .litlen 0 0 0 ∧ 0 < 256 ∧
    formOf .litFF = .symbol .litlen 255 0 0 ∧ 255 < 256 := by decide

/-- The ends of the three ranges of length symbols, in a block with a distance code. -/
theorem witness_LengthSymbolsGiveTheirRunLength : (bodyState [] .litlen).bd.dPresent = true ∧
    formOf .len257 = .symbol .litlen 257 0 0 ∧ formOf .len264 = .symbol .litlen 264 0 0 ∧
    formOf (.len265 1) = .symbol .litlen 265 1 1 ∧ formOf (.len284 31) = .symbol .litlen 284 5 31 ∧
    formOf .len285 = .symbol .litlen 285 0 0 := ⟨rfl, rfl, rfl, rfl, rfl, rfl⟩

theorem witness_ReservedLengthSymbolsFail : formOf .len286Reserved = .symbol .litlen 286 0 0 ∧
    formOf .len287Reserved = .symbol .litlen 287 0 0 := ⟨rfl, rfl⟩

theorem witness_LengthsWithoutADistanceCodeFail : (headerState .litlen 0 0).bd.dPresent = false ∧
    formOf .len257 = .symbol .litlen 257 0 0 ∧ formOf .len285 = .symbol .litlen 285 0 0 := ⟨rfl, rfl, rfl⟩

/-- The one byte held, at distance 1, with the shortest and the longest run length. -/
theorem witness_DistanceSymbolsCopy : formOf .dist0 = .symbol .dist 0 0 0 ∧
    (HistoryOk (matchState 3 1) ∧ RunLenOk (matchState 3 1) ∧ distanceOf 0 0 ≤ (matchState 3 1).hb.fill.toNat) ∧
    (HistoryOk (matchState 258 1) ∧ RunLenOk (matchState 258 1) ∧ distanceOf 0 0 ≤ (matchState 258 1).hb.fill.toNat) :=
  ⟨rfl, ⟨history_one 0x41 (by decide) rfl rfl, ⟨by decide, by decide⟩, by decide⟩,
    history_one 0x41 (by decide) rfl rfl, ⟨by decide, by decide⟩, by decide⟩

/-- Distance 2 on one byte; the longest distance on one byte fewer. -/
theorem witness_TooFarDistancesFail : formOf .dist1 = .symbol .dist 1 0 0 ∧ RunLenOk (matchState 3 1) ∧
    (matchState 3 1).hb.fill.toNat < distanceOf 1 0 ∧ formOf (.dist29 8191) = .symbol .dist 29 13 8191 ∧
    (matchState 3 32767).hb.fill.toNat < distanceOf 29 8191 :=
  ⟨rfl, ⟨by decide, by decide⟩, by decide, rfl, by decide⟩

theorem witness_ReservedDistanceSymbolsFail : formOf .dist30Reserved = .symbol .dist 30 0 0 ∧
    formOf .dist31Reserved = .symbol .dist 31 0 0 := ⟨rfl, rfl⟩

theorem witness_ImpossibleValuesAreInternal :
    (ReaderOk (aboveState .clsym 19) ∧ (aboveState .clsym 19).br.eos = false ∧ ended (aboveState .clsym 19) = false ∧
      decodeSymbolFrom listBits (aboveState .clsym 19).bd.clCode (bitsAhead (aboveState .clsym 19)) =
        .ok 19 (List.replicate 7 false)) ∧
    (ReaderOk (aboveState .litlen 288) ∧
      decodeSymbolFrom listBits (litlenCode (aboveState .litlen 288)) (bitsAhead (aboveState .litlen 288)) =
        .ok 288 (List.replicate 7 false)) ∧
    (ReaderOk (aboveState .dist 32) ∧
      decodeSymbolFrom listBits (distCode (aboveState .dist 32)) (bitsAhead (aboveState .dist 32)) =
        .ok 32 (List.replicate 7 false)) ∧
    countCl 0 ≤ (4 : BitVec 5).toNat ∧
    codeLenCount (headerState .clsym 0 258) ≤ (headerState .clsym 0 258).bd.idx.toNat ∧
    ¬ RunLenOk (matchState 2 1) ∧ ¬ RunLenOk (matchState 259 1) :=
  ⟨⟨reader_of (by decide), rfl, rfl, by decide +kernel⟩, ⟨reader_of (by decide), by decide +kernel⟩,
    ⟨reader_of (by decide), by decide +kernel⟩, by decide, by decide, fun h => absurd h.1 (by decide),
    fun h => absurd h.2 (by decide)⟩

/-- Elements that meet the exclusions of the three frames: EOB, a length, the fixed dispatch, a literal. -/
theorem witness_OnlyOutputElementsTouchTheHistory : (∃ t, exec .eob (bodyState [] .litlen) = .next t) ∧
    formOf .eob = .symbol .litlen 256 0 0 ∧ (∃ t, exec (.btype1Fixed true) State.reset = .next t) ∧
    formOf (.btype1Fixed true) = .header true 1 := ⟨⟨_, rfl⟩, rfl, ⟨_, rfl⟩, rfl⟩

theorem witness_OnlyStoredBlocksReadFurther : (∃ t, exec .lit41 State.reset = .next t) ∧
    (∀ f, Instr.lit41 ≠ .btype0Stored f) ∧ (∀ len nlen, Instr.lit41 ≠ .storedLenNlen len nlen) :=
  ⟨⟨_, rfl⟩, ⟨fun _ => Instr.noConfusion, fun _ _ => Instr.noConfusion⟩⟩

theorem witness_OnlyDynamicHeadersBuildCodes : (∃ t, exec .lit41 State.reset = .next t) ∧
    (∀ v, Instr.lit41 ≠ .cllen v) ∧ formOf .lit41 = .symbol .litlen 0x41 0 0 := ⟨⟨_, rfl⟩, ⟨fun _ => Instr.noConfusion, rfl⟩⟩

theorem witness_OutputIsNeverRetracted : ∃ t, step (startOn [0x06]) = .next t ∧ bitpos t == 3 :=
  next_of (fun t => bitpos t == 3) (by decide +kernel)

theorem witness_PhasesFollowTheStateMachine : Safe (bodyState [0x73, 0x44, 0, 0] .litlen) ∧
    ∃ t, step (bodyState [0x73, 0x44, 0, 0] .litlen) = .next t ∧ t.bd.expect == .dist :=
  ⟨bodyState_safe, next_of (fun t => t.bd.expect == .dist) (by decide +kernel)⟩

theorem witness_EveryRunEnds : Safe (bodyState [0x73, 0x44, 0, 0] .litlen) := bodyState_safe

/-- An empty fixed block, `03 00`: header, dispatch, end of block. -/
theorem witness_BytesAfterTheStreamAreNeverRead : ∃ t, Sys2Proof.core.run 3 (startOn [0x03, 0x00, 0xAA]) = .next t ∧
    (t.bd.phase == .done && t.src.pos == 2) = true :=
  next_of (fun t => t.bd.phase == .done && t.src.pos == 2) (by decide +kernel)

theorem witness_ProperPrefixesAreTruncated : 1 < [0x03, 0x00].length ∧
    ∃ t, Sys2Proof.core.run 3 (startOn [0x03, 0x00]) = .next t ∧ (t.bd.phase == .done && t.src.pos == 2) = true :=
  ⟨by decide, next_of (fun t => t.bd.phase == .done && t.src.pos == 2) (by decide +kernel)⟩

end Sys2Proof.Tests
end

section
/-!
Proofs of the family 10_state: what an accepted code gives the decoder, and what the decoder answers in a context whose
codes are accepted. It stops for missing bits only, and an element it answers is one that can stand there.
-/

namespace Sys2Proof.Machine

/-! ### Accepted codes -/

/-- The symbols of an accepted code lie in its alphabet. -/
theorem AcceptedCode.sym_lt {n : Nat} {code : Code} (h : AcceptedCode n code) (hn : n ≤ 512) {e : Entry} (he : e ∈ code) :
    e.sym.toNat < n := by
  obtain ⟨lens, hlen, hb⟩ := h
  obtain ⟨hcode, -, htile⟩ := build_tiles hb
  rw [hcode] at he
  obtain ⟨t, ht, rfl⟩ := List.mem_map.mp he
  obtain ⟨-, -, -, l, hl, -⟩ := htile t ht
  have hlt : t.sym < lens.length := (List.getElem?_eq_some_iff.mp hl).1
  simp only [Tile.entry, BitVec.toNat_ofNat]
  omega

/-- Keys of an accepted code that are cuts of one another are the same entry's, uncut. -/
theorem entry_eq_of_prefix {lens : List (BitVec 4)} {code : Code} (hb : build lens = .ok code) {d e : Entry}
    (hd : d ∈ code) (he : e ∈ code) {k : Nat} (hk : d.key.toNat = e.key.toNat / 2 ^ k) : d = e ∧ k = 0 := by
  rw [(build_tiles hb).1] at hd he
  obtain ⟨x, hx, rfl⟩ := List.mem_map.mp hd
  obtain ⟨y, hy, rfl⟩ := List.mem_map.mp he
  obtain ⟨rfl, hk0⟩ := tile_eq_of_prefix hb hx hy hk
  exact ⟨rfl, hk0⟩

/-- An accepted code leaves no gap: some key leads along any fifteen bits. -/
theorem exists_entry_of_path {lens : List (BitVec 4)} {code : Code} (hb : build lens = .ok code) {bs : List Bool}
    (hl : bs.length = 15) : ∃ e ∈ code, ∃ n, 1 ≤ n ∧ n ≤ 15 ∧ e.key.toNat = pathKey 1 (bs.take n) := by
  obtain ⟨hcode, hchain, htile⟩ := build_tiles hb
  have hrange := pathKey_range bs 1
  rw [hl] at hrange
  obtain ⟨t, ht, hstart, hstop⟩ := chain_cover hchain (pathKey 1 bs - 2 ^ 15) (by omega) (by omega)
  obtain ⟨h1, h15, hval, -⟩ := htile t ht
  refine ⟨t.entry, hcode ▸ List.mem_map_of_mem ht, t.len, h1, h15, ?_⟩
  have hcut : pathKey 1 (bs.take t.len) = pathKey 1 bs / 2 ^ (15 - t.len) := by
    conv_rhs => rw [← List.take_append_drop t.len bs, pathKey_append]
    have := pathKey_div (bs.drop t.len) (pathKey 1 (bs.take t.len))
    rw [List.length_drop, hl] at this
    exact this.symm
  have hpow : 2 ^ t.len * 2 ^ (15 - t.len) = 2 ^ 15 := by rw [← Nat.pow_add]; congr 1; omega
  rw [hcut, Tile.entry, sentinelKey_toNat _ _ hval h15, eq_comm, Nat.div_eq_iff (Nat.two_pow_pos _), Nat.add_mul, hpow]
  simp only [Tile.start, Tile.stop, Nat.add_mul, Nat.one_mul] at hstart hstop
  omega

/-- With fifteen bits at hand an accepted code decodes a symbol (41_canonical_code.md R157). -/
theorem decodeSymbol_ok_of_fifteen {lens : List (BitVec 4)} {code : Code} (hb : build lens = .ok code) {bits : List Bool}
    (hl : 15 ≤ bits.length) : ∃ sym rest, decodeSymbolFrom listBits code bits = .ok sym rest := by
  obtain ⟨e, he, n, h1, h15, hkey⟩ := exists_entry_of_path (bs := bits.take 15) hb (by simp [hl])
  rw [List.take_take, Nat.min_eq_left h15] at hkey
  have hlen : (bits.take n).length = n := by rw [List.length_take]; omega
  have hit := decodeLoop_hit he (fun d hd k hk => entry_eq_of_prefix hb hd he hk) (bits.take n) (bits.drop n) 1 15
    (List.ne_nil_of_length_pos (by omega)) (by omega) hkey.symm
  rw [List.take_append_drop] at hit
  exact ⟨_, _, hit⟩

/-! ### Reads that stop -/

theorem Got.bind_eq_ok {σ α β : Type} {g : Got σ α} {f : α → σ → Got σ β} {b : β} {t : σ} :
    g.bind f = .ok b t ↔ ∃ a s, g = .ok a s ∧ f a s = .ok b t := by
  cases g <;> simp [Got.bind]

theorem Got.noting_eq_ok {σ α : Type} {g : Got σ α} {p : Partial} {a : α} {s : σ} :
    g.noting p = .ok a s ↔ g = .ok a s := by
  cases g with
  | ok => rfl
  | stop r => cases r <;> simp [Got.noting]

/-- A read that stops for missing bits only, if it stops. -/
def OnlyRunsOut {σ α : Type} (g : Got σ α) : Prop := ∀ r s, g = .stop r s → ∃ got, r = .unexpectedEnd got

theorem OnlyRunsOut.ok {σ α : Type} (a : α) (s : σ) : OnlyRunsOut (.ok a s : Got σ α) := nofun

theorem OnlyRunsOut.bind {σ α β : Type} {g : Got σ α} {f : α → σ → Got σ β} (hg : OnlyRunsOut g)
    (hf : ∀ a s, g = .ok a s → OnlyRunsOut (f a s)) : OnlyRunsOut (g.bind f) := by
  cases g with
  | ok a s => exact hf a s rfl
  | stop r s => rintro _ _ ⟨⟩; exact hg r s rfl

theorem OnlyRunsOut.noting {σ α : Type} {g : Got σ α} (p : Partial) (hg : OnlyRunsOut g) : OnlyRunsOut (g.noting p) := by
  cases g with
  | ok a s => exact .ok a s
  | stop r s => obtain ⟨got, rfl⟩ := hg r s rfl; rintro _ _ ⟨⟩; exact ⟨p, rfl⟩

theorem readBits_onlyRunsOut {σ : Type} (src : BitSource σ) (n : Nat) (s : σ) : OnlyRunsOut (readBits src n s) := by
  induction n generalizing s with
  | zero => exact .ok _ _
  | succ n ih =>
    simp only [readBits]
    split
    · rintro _ _ ⟨⟩; exact ⟨_, rfl⟩
    · exact (ih _).bind fun _ _ _ => .ok _ _

theorem readUintFrom_onlyRunsOut {σ : Type} (src : BitSource σ) {n : Nat} (hn : n ≤ 15) (s : σ) :
    OnlyRunsOut (readUintFrom src n s) := by
  rw [readUintFrom, if_neg (show ¬ Config.maxUint < n from Nat.not_lt.mpr hn)]
  exact readBits_onlyRunsOut src n s

theorem readU16From_onlyRunsOut {σ : Type} (src : BitSource σ) (s : σ) : OnlyRunsOut (readU16From src s) :=
  (readUintFrom_onlyRunsOut src (by decide) s).bind fun _ _ _ =>
    (readUintFrom_onlyRunsOut src (by decide) _).bind fun _ _ _ => .ok _ _

/-- The loop of `decodeSymbol` stops for missing bits, or with its iterations used up. -/
theorem decodeLoop_stop {σ : Type} {src : BitSource σ} {code : Code} {n : Nat} {key : BitVec 16} {s s' : σ} {r : Reject}
    (h : decodeLoop src code n key s = .stop r s') : (∃ got, r = .unexpectedEnd got) ∨ r = .decodeOverrun := by
  induction n generalizing key s with
  | zero => cases h; exact .inr rfl
  | succ n ih =>
    simp only [decodeLoop] at h
    cases hread : readUintFrom src 1 s with
    | stop q t =>
      rw [hread] at h; cases h
      exact .inl (readUintFrom_onlyRunsOut src (by decide) s _ _ hread)
    | ok bit t =>
      rw [hread] at h
      simp only [Got.bind] at h
      split at h
      · cases h
      · exact ih h

/-- On an accepted code the decoding of a symbol never overruns (41_canonical_code.md R157). -/
theorem decodeSymbol_onlyRunsOut {n : Nat} {code : Code} (h : AcceptedCode n code) (bits : List Bool) :
    OnlyRunsOut (decodeSymbolFrom listBits code bits) := by
  obtain ⟨lens, -, hb⟩ := h
  intro r rest hstop
  rcases decodeLoop_stop hstop with hr | rfl
  · exact hr
  · obtain ⟨sym, rest', hok⟩ := decodeSymbol_ok_of_fifteen hb (decodeLoop_overrun _ _ _ _ hstop)
    rw [hok] at hstop; cases hstop

/-- A decoded symbol is in the table. -/
theorem decodeSymbol_mem {code : Code} {bits rest : List Bool} {sym : Nat}
    (h : decodeSymbolFrom listBits code bits = .ok sym rest) : ∃ e ∈ code, e.sym.toNat = sym := by
  obtain ⟨-, e, -, he, hsym, -⟩ := decodeLoop_ok 15 1 1 bits rest sym (by decide) (by decide) h
  exact ⟨e, he, hsym⟩

/-! ### The alphabets -/

theorem literalRows_length : literalRows.length = 256 := by decide +kernel

theorem lengthRows_length : lengthRows.length = 32 := rfl

theorem litlenInstr_isSome {sym : Nat} (h : sym < 288) (x : Nat) : ∃ i, litlenInstr sym x = some i := by
  unfold litlenInstr
  split
  · rename_i hlt
    exact ⟨_, List.getElem?_eq_getElem (literalRows_length ▸ hlt)⟩
  · have hlt : sym - 256 < lengthRows.length := by rw [lengthRows_length]; omega
    exact ⟨_, by rw [List.getElem?_eq_getElem hlt]; rfl⟩

theorem distInstr_isSome {sym : Nat} (h : sym < 32) (x : Nat) : ∃ i, distInstr sym x = some i :=
  ⟨_, by rw [distInstr, List.getElem?_eq_getElem (show sym < distRows.length from h)]; rfl⟩

theorem clInstr_isSome {sym : Nat} (h : sym < 19) (x : Nat) : ∃ i, clInstr sym x = some i :=
  ⟨_, by rw [clInstr, List.getElem?_eq_getElem (show sym < clRows.length from h)]; rfl⟩

theorem lengthExtraBits_le (sym : Nat) : lengthExtraBits sym ≤ 5 := by unfold lengthExtraBits; split <;> omega

theorem distExtraBits_le (sym : Nat) : distExtraBits sym ≤ 13 := by unfold distExtraBits; split <;> omega

theorem clExtraBits_le (sym : Nat) : clExtraBits sym ≤ 7 := by unfold clExtraBits; split_ifs <;> omega

theorem clOperandBits_le (first : Bool) (sym : Nat) : clOperandBits first sym ≤ clExtraBits sym := by
  unfold clOperandBits; split_ifs <;> omega

/-! ### The decoder -/

/-- A symbol element of an accepted code, its extra bits within a read's range and its alphabet complete, stops for missing
bits only. -/
theorem decodeElement_onlyRunsOut {n : Nat} {code : Code} {width : Nat → Nat} {instr : Nat → Nat → Option Instr}
    (hc : AcceptedCode n code) (hn : n ≤ 512) (hw : ∀ sym, width sym ≤ 15)
    (hi : ∀ sym, sym < n → ∀ x, ∃ i, instr sym x = some i) (bits : List Bool) :
    OnlyRunsOut (decodeElement listBits code width instr bits) := by
  refine (decodeSymbol_onlyRunsOut hc bits).bind fun sym _ hsym => ?_
  refine (readUintFrom_onlyRunsOut listBits (hw sym) _).bind fun x s _ => ?_
  obtain ⟨e, he, rfl⟩ := decodeSymbol_mem hsym
  obtain ⟨i, hi⟩ := hi _ (hc.sym_lt hn he) x
  rw [hi]
  exact .ok i s

/-- Where the codes are accepted the decoder stops for missing bits only. -/
theorem decode_onlyRunsOut {c : Ctx} (hc : ctxAccepted c) (bits : List Bool) : OnlyRunsOut (decode listBits c bits) := by
  have field : ∀ {n : Nat} {f : Nat → Instr}, n ≤ 15 →
      OnlyRunsOut ((readUintFrom listBits n bits).bind fun v s => .ok (f v) s) :=
    fun hn => (readUintFrom_onlyRunsOut _ hn _).bind fun _ _ _ => .ok _ _
  cases c with
  | header =>
    exact (readUintFrom_onlyRunsOut _ (by decide) _).bind fun _ _ _ =>
      ((readUintFrom_onlyRunsOut _ (by decide) _).noting _).bind fun _ _ _ => .ok _ _
  | dispatch f t => exact .ok _ _
  | storedLen =>
    exact (readU16From_onlyRunsOut _ _).bind fun _ _ _ =>
      ((readU16From_onlyRunsOut _ _).noting _).bind fun _ _ _ => .ok _ _
  | hlit => exact field (by decide)
  | hdist => exact field (by decide)
  | hclen => exact field (by decide)
  | cllen => exact field (by decide)
  | clsym code first =>
    exact decodeElement_onlyRunsOut hc (by decide)
      (fun sym => (clOperandBits_le first sym).trans ((clExtraBits_le sym).trans (by decide)))
      (fun _ h => clInstr_isSome h) bits
  | litlen code =>
    exact decodeElement_onlyRunsOut hc (by decide) (fun sym => (lengthExtraBits_le sym).trans (by decide))
      (fun _ h => litlenInstr_isSome h) bits
  | dist code =>
    exact decodeElement_onlyRunsOut hc (by decide) (fun sym => (distExtraBits_le sym).trans (by decide))
      (fun _ h => distInstr_isSome h) bits

/-- What a decoded symbol element is: its symbol is in the table, its extra bits were read to their width. -/
theorem decodeElement_ok {code : Code} {width : Nat → Nat} {instr : Nat → Nat → Option Instr} {bits rest : List Bool}
    {i : Instr} (h : decodeElement listBits code width instr bits = .ok i rest) :
    ∃ sym x, hasSymbol code sym = true ∧ x < 2 ^ width sym ∧ instr sym x = some i := by
  obtain ⟨sym, bits', hsym, h⟩ := Got.bind_eq_ok.mp h
  obtain ⟨x, bits'', hx, h⟩ := Got.bind_eq_ok.mp h
  obtain ⟨e, he, hes⟩ := decodeSymbol_mem hsym
  refine ⟨sym, x, List.any_eq_true.mpr ⟨e, he, by simp [hes]⟩, (readUintFrom_inv hx).2.1, ?_⟩
  unfold orValueRange at h
  split at h
  · rename_i hsome; cases h; exact hsome
  · cases h

/-- The header bits select the element of the dispatch that has them. -/
theorem formOf_btypeInstr (f : Bool) (t : BitVec 2) : formOf (btypeInstr f t) = .header f t := by
  revert f t; decide

/-- What the decoder answers can stand where it was read (30_encoding.md R90, R100). -/
theorem decode_ok_wf {c : Ctx} {i : Instr} {bits rest : List Bool} (h : decode listBits c bits = .ok i rest) :
    i.wf c = true := by
  cases c with
  | header =>
    obtain ⟨f, s, -, h⟩ := Got.bind_eq_ok.mp h
    obtain ⟨t, s, -, h⟩ := Got.bind_eq_ok.mp h
    cases h; rfl
  | dispatch f t => cases h; simp [Instr.wf, formOf_btypeInstr]
  | storedLen =>
    obtain ⟨len, s, -, h⟩ := Got.bind_eq_ok.mp h
    obtain ⟨nlen, s, -, h⟩ := Got.bind_eq_ok.mp h
    cases h; rfl
  | hlit | hdist | hclen | cllen =>
    obtain ⟨v, s, -, h⟩ := Got.bind_eq_ok.mp h
    cases h; rfl
  | clsym code first =>
    obtain ⟨sym, x, hsym, hx, hi⟩ := decodeElement_ok h
    have hform := formOf_of_clInstr hi (hx.trans_le (Nat.pow_le_pow_right (by decide) (clOperandBits_le first sym)))
    have hzero : first = true → sym = 16 → x = 0 := by
      rintro rfl rfl
      simpa [clOperandBits] using hx
    simp only [Instr.wf, hform, hsym, Bool.true_and]
    cases first with
    | false => rfl
    | true =>
      by_cases h16 : sym = 16
      · simp [hzero rfl h16]
      · simp [h16]
  | litlen code =>
    obtain ⟨sym, x, hsym, hx, hi⟩ := decodeElement_ok h
    simp [Instr.wf, formOf_of_litlenInstr hi hx, hsym]
  | dist code =>
    obtain ⟨sym, x, hsym, hx, hi⟩ := decodeElement_ok h
    simp [Instr.wf, formOf_of_distInstr hi hx, hsym]

end Sys2Proof.Machine
end

section
/-!
Proofs of the family 10_state: the elements that reach the history buffer, the reader and the code tables are the named ones.
-/

namespace Sys2Proof.Machine

/-- The case split of `kind_cases` as an eliminator: one named case for each dispatch and each fixed-width field, one for
each alphabet. -/
theorem kindElim {P : Instr → Prop} (btype0 : ∀ f, P (.btype0Stored f)) (btype1 : ∀ f, P (.btype1Fixed f))
    (btype2 : ∀ f, P (.btype2Dynamic f)) (btype3 : ∀ f, P (.btype3Reserved f)) (hdr : ∀ f t, P (.hdr f t))
    (stored : ∀ len nlen, P (.storedLenNlen len nlen)) (hlit : ∀ v, P (.hlit v)) (hdist : ∀ v, P (.hdist v))
    (hclen : ∀ v, P (.hclen v)) (cllen : ∀ v, P (.cllen v))
    (litlen : ∀ i sym n x, formOf i = .symbol .litlen sym n x → P i)
    (dist : ∀ i sym n x, formOf i = .symbol .dist sym n x → P i)
    (clsym : ∀ i sym n x, formOf i = .symbol .clsym sym n x → P i) (i : Instr) : P i := by
  rcases kind_cases i with ⟨f, rfl | rfl | rfl | rfl⟩ | ⟨f, t, rfl⟩ | ⟨len, nlen, rfl⟩ | ⟨v, rfl⟩ | ⟨v, rfl⟩ | ⟨v, rfl⟩ |
    ⟨v, rfl⟩ | ⟨sym, n, x, h⟩ | ⟨sym, n, x, h⟩ | ⟨sym, n, x, h⟩
  · exact btype0 f
  · exact btype1 f
  · exact btype2 f
  · exact btype3 f
  · exact hdr f t
  · exact stored len nlen
  · exact hlit v
  · exact hdist v
  · exact hclen v
  · exact cllen v
  · exact litlen i sym n x h
  · exact dist i sym n x h
  · exact clsym i sym n x h

/-- A literal/length symbol moves no reader. -/
theorem litlenMeaning_reader {sym x : Nat} {s t : State} (h : litlenMeaning sym x s = .next t) :
    t.src = s.src ∧ t.br = s.br := by
  by_cases hs : sym < 256
  · rw [litlenMeaning, if_pos hs] at h
    cases h; exact ⟨rfl, rfl⟩
  · obtain ⟨hsrc, hbr, -, -⟩ := litlenMeaning_frame h (Nat.le_of_not_lt hs)
    exact ⟨hsrc, hbr⟩

/-- A literal/length symbol builds no code. -/
theorem litlenMeaning_codes {sym x : Nat} {s t : State} (h : litlenMeaning sym x s = .next t) :
    t.bd.clCode = s.bd.clCode ∧ t.bd.llCode = s.bd.llCode ∧ t.bd.dCode = s.bd.dCode := by
  unfold litlenMeaning at h
  split at h
  · cases h; exact ⟨rfl, rfl, rfl⟩
  · split at h
    · cases h; simp
    · split at h
      · rcases lengthSymbol_cases h with ⟨-, rfl⟩ | ⟨-, rfl⟩ <;> exact ⟨rfl, rfl, rfl⟩
      · cases h; exact ⟨rfl, rfl, rfl⟩

/-- The lengths and the data of a stored block build no code. -/
theorem execStoredLenNlen_codes {len nlen : BitVec 16} {s t : State} (h : execStoredLenNlen len nlen s = .next t) :
    t.bd.clCode = s.bd.clCode ∧ t.bd.llCode = s.bd.llCode ∧ t.bd.dCode = s.bd.dCode := by
  unfold execStoredLenNlen at h
  simp only at h
  split at h
  · cases h; exact ⟨rfl, rfl, rfl⟩
  · cases h; exact storedData_codes _ _

/-- Settles O53: element kind by element kind, with the frames of the meanings. -/
theorem onlyOutputElementsTouchTheHistory : Obligations.OnlyOutputElementsTouchTheHistory := by
  intro i s t h hlit hdist hstored
  cases i using kindElim with
  | btype0 f =>
    obtain ⟨hhb, hout, -⟩ := execBtype0Stored_frame (f := f) h
    exact ⟨hhb, hout⟩
  | stored len nlen => exact absurd rfl (hstored len nlen)
  | cllen v =>
    obtain ⟨-, -, hhb, hout⟩ := execCllen_frame (v := v) h
    exact ⟨hhb, hout⟩
  | litlen i sym n x hform =>
    obtain ⟨-, -, hhb, hout⟩ := litlenMeaning_frame (exec_litlen hform s ▸ h) (hlit sym n x hform)
    exact ⟨hhb, hout⟩
  | dist i sym n x hform => exact absurd hform (hdist sym n x)
  | clsym i sym n x hform =>
    obtain ⟨-, -, hhb, hout⟩ := clMeaning_frame (exec_clsym hform s ▸ h)
    exact ⟨hhb, hout⟩
  | _ => cases h; exact ⟨rfl, rfl⟩

/-- Settles O54: element kind by element kind, with the frames of the meanings. -/
theorem onlyStoredBlocksReadFurther : Obligations.OnlyStoredBlocksReadFurther := by
  intro i s t h hbtype0 hstored
  cases i using kindElim with
  | btype0 f => exact absurd rfl (hbtype0 f)
  | stored len nlen => exact absurd rfl (hstored len nlen)
  | cllen v =>
    obtain ⟨hsrc, hbr, -⟩ := execCllen_frame (v := v) h
    exact ⟨hsrc, hbr⟩
  | litlen i sym n x hform => exact litlenMeaning_reader (exec_litlen hform s ▸ h)
  | dist i sym n x hform =>
    obtain ⟨hsrc, hbr, -⟩ := distMeaning_frame (exec_dist hform s ▸ h)
    exact ⟨hsrc, hbr⟩
  | clsym i sym n x hform =>
    obtain ⟨hsrc, hbr, -⟩ := clMeaning_frame (exec_clsym hform s ▸ h)
    exact ⟨hsrc, hbr⟩
  | _ => cases h; exact ⟨rfl, rfl⟩

/-- Settles O55: element kind by element kind, with the frames of the meanings. -/
theorem onlyDynamicHeadersBuildCodes : Obligations.OnlyDynamicHeadersBuildCodes := by
  intro i s t h hcllen hclsym
  cases i using kindElim with
  | btype0 f =>
    obtain ⟨-, -, -, -, hcodes⟩ := execBtype0Stored_frame (f := f) h
    exact hcodes
  | stored len nlen => exact execStoredLenNlen_codes (len := len) (nlen := nlen) h
  | cllen v => exact absurd rfl (hcllen v)
  | litlen i sym n x hform => exact litlenMeaning_codes (exec_litlen hform s ▸ h)
  | dist i sym n x hform =>
    obtain ⟨-, -, -, hcodes⟩ := distMeaning_frame (exec_dist hform s ▸ h)
    exact hcodes
  | clsym i sym n x hform => exact absurd hform (hclsym sym n x)
  | _ => cases h; exact ⟨rfl, rfl, rfl⟩

end Sys2Proof.Machine
end

section
/-!
Proofs of the family 10_state: every step of a run keeps `Safe` and follows the state machine of the phases. What a step does
with the elements is settled once, in `step_settles`.
-/

namespace Sys2Proof.Machine

/-! ### The parts of the invariant under the operations -/

/-- The reader's part of the invariant is about the source and the bit reader alone. -/
theorem ReaderOk.of_eq {s t : State} (h : ReaderOk s) (hsrc : t.src = s.src) (hbr : t.br = s.br) : ReaderOk t := by
  obtain ⟨hpos, hcur, heos⟩ := h
  rw [← hsrc, ← hbr] at hcur heos
  exact ⟨hsrc ▸ hpos, hcur, heos⟩

/-- The history's part of the invariant is about the history buffer and the output alone. -/
theorem HistoryOk.of_eq {s t : State} (h : HistoryOk s) (hhb : t.hb = s.hb) (hout : t.out = s.out) : HistoryOk t := by
  obtain ⟨hmem, hcur, hfill, hwindow⟩ := h
  rw [← hhb, ← hout] at hcur hfill hwindow
  exact ⟨hhb ▸ hmem, hcur, hfill, hwindow⟩

/-- A byte sent and appended keeps the window on the output (10_state.md R32, 42_history_buffer.md R171). -/
theorem HistoryOk.emit_keeps {s : State} (h : HistoryOk s) (b : Byte) : HistoryOk (emit b s) := by
  have hcur := h.cur_eq
  have hfill := h.fill_eq
  have hone : (1 : BitVec 15).toNat = 1 := rfl
  simp only [Config.capacity] at hcur hfill
  refine ⟨?_, ?_, ?_, fun d h1 h2 => ?_⟩
  · rw [emit_hb_mem]
    exact Memory.write_wf h.mem_wf (show _ < 32768 from s.hb.cur.isLt) b
  · simp only [emit_hb_cur, emit_out, List.length_append, List.length_singleton, Config.capacity, BitVec.toNat_add,
      hone]
    omega
  · simp only [emit_hb_fill, emit_out, List.length_append, List.length_singleton, Config.capacity, BitVec.toNat_ofNat]
    omega
  · have hd : d ≤ min (s.out.length + 1) 32768 := by
      simp only [emit_hb_fill, Config.capacity, BitVec.toNat_ofNat] at h2
      omega
    have hback : s.hb.cur + 1 - BitVec.ofNat 15 d = s.hb.cur - BitVec.ofNat 15 (d - 1) := by
      apply BitVec.eq_of_toNat_eq
      simp only [BitVec.toNat_sub, BitVec.toNat_add, BitVec.toNat_ofNat, hone]
      omega
    rw [emit_hb_mem, emit_hb_cur, emit_out, hback, List.length_append, List.length_singleton]
    rcases Nat.eq_or_lt_of_le h1 with rfl | hlt
    · simp [Memory.read_write_self h.mem_wf.1]
    · have hne : (s.hb.cur - BitVec.ofNat 15 (d - 1)).toNat ≠ s.hb.cur.toNat := by
        simp only [BitVec.toNat_sub, BitVec.toNat_ofNat]
        omega
      rw [Memory.read_write_of_ne _ _ hne, h.window (d - 1) (by omega) (by omega), List.getElem?_append_left (by omega)]
      congr 1
      omega

theorem HistoryOk.emitAll_keeps {s : State} (h : HistoryOk s) (bs : List Byte) : HistoryOk (emitAll bs s) := by
  induction bs generalizing s with
  | nil => exact h
  | cons b bs ih => rw [emitAll_cons]; exact ih (h.emit_keeps b)

/-- In phase `Failed` nothing is expected. -/
theorem controlOk_of_failed {s : State} (h : s.bd.phase = .failed) : ControlOk s := by simp [ControlOk, h]

/-- In phase `Done` nothing is expected. -/
theorem controlOk_of_done {s : State} (h : s.bd.phase = .done) : ControlOk s := by simp [ControlOk, h]

/-! ### A run that goes on -/

/-- What the invariant says of a run that has not ended, but for the element expected. -/
structure Running (s : State) : Prop where
  reader : ReaderOk s
  history : HistoryOk s
  eos : s.br.eos = false
  err : s.bd.err = none
  notDone : s.bd.phase ≠ .done
  notFailed : s.bd.phase ≠ .failed

/-- A block's body, with the codes in force (45_huffman_body.md R240). -/
def InBody (s : State) : Prop :=
  (s.bd.phase = .fixedHuffmanBlock ∧ s.bd.useFixed = true ∧ s.bd.dPresent = true) ∨
    (s.bd.phase = .dynamicHuffmanBlock ∧ BodyCodesOk s)

/-- What `ControlOk` says of the block decoder of a run that goes on, by the element expected. -/
def Due (s : State) : Prop :=
  match s.bd.expect with
  | .header | .dispatch => s.bd.phase = .readingHeader
  | .storedLen => s.bd.phase = .storedBlock
  | .hlit | .hdist | .hclen => s.bd.phase = .dynamicHuffmanBlock
  | .cllen => s.bd.phase = .dynamicHuffmanBlock ∧ s.bd.clPos.toNat < countCl s.bd.hclen
  | .clsym => s.bd.phase = .dynamicHuffmanBlock ∧ AcceptedCode 19 s.bd.clCode ∧ s.bd.idx.toNat < codeLenCount s
  | .litlen => InBody s
  | .dist => InBody s ∧ s.bd.dPresent = true ∧ RunLenOk s

/-- `ControlOk` while the run goes on: what is due, and a stored block's lengths at a byte boundary. -/
theorem controlOk_iff {s : State} (hdone : s.bd.phase ≠ .done) (hfailed : s.bd.phase ≠ .failed) :
    ControlOk s ↔ Due s ∧ (s.bd.expect = .storedLen → s.br.rem = 0) := by
  cases hp : s.bd.phase <;> cases he : s.bd.expect <;> simp_all [ControlOk, Due, InBody, and_assoc]

/-- What is due is a matter of the block decoder alone. -/
theorem Due.of_bd {s t : State} (h : Due s) (hbd : t.bd = s.bd) : Due t := by
  cases s; cases t; cases hbd; exact h

theorem Safe.running {s : State} (h : Safe s) (hrun : ended s = false) : Running s := by
  obtain ⟨hreader, hhistory, hstatus, -⟩ := h
  have hphase : s.bd.phase ≠ .done ∧ s.bd.phase ≠ .failed := by simpa [ended] using hrun
  have herr : s.bd.err = none := by simpa [hphase.2] using hstatus.failed_iff
  exact ⟨hreader, hhistory, by simpa [herr] using hstatus.eos_iff, herr, hphase.1, hphase.2⟩

theorem Running.safe {s : State} (h : Running s) (hdue : Due s) (hrem : s.bd.expect = .storedLen → s.br.rem = 0) :
    Safe s where
  reader := h.reader
  history := h.history
  status := ⟨by simp [h.notFailed, h.err], by simp [h.err], by simp [h.err], by simp [h.err, h.eos],
    fun hd => absurd hd h.notDone⟩
  control := (controlOk_iff h.notDone h.notFailed).mpr ⟨hdue, hrem⟩

/-- A change of the block decoder that ends nothing keeps the run going. -/
theorem Running.setBd_keeps {s : State} (h : Running s) {b : BlockDecoder} (herr : b.err = none) (hdone : b.phase ≠ .done)
    (hfailed : b.phase ≠ .failed) : Running { s with bd := b } :=
  ⟨h.reader.of_eq rfl rfl, h.history.of_eq rfl rfl, h.eos, herr, hdone, hfailed⟩

theorem Running.emitAll_keeps {s : State} (h : Running s) (bs : List Byte) : Running (emitAll bs s) :=
  ⟨h.reader.of_eq (emitAll_src bs s) (emitAll_br bs s), h.history.emitAll_keeps bs, by simp [h.eos], by simp [h.err],
    by simp [h.notDone], by simp [h.notFailed]⟩

theorem Running.emit_keeps {s : State} (h : Running s) (b : Byte) : Running (emit b s) := h.emitAll_keeps [b]

theorem Running.consume_keeps {s : State} (h : Running s) {k : Nat} (hk : k ≤ (bitsAhead s).length) : Running (consume k s) :=
  ⟨(consume_spec h.reader h.eos k hk).1, h.history.of_eq (consume_hb k s) (consume_out k s), by simp [h.eos],
    by simp [h.err], by simp [h.notDone], by simp [h.notFailed]⟩

/-- A failure of the stream's form ends a run safely (60_exceptions.md R290). -/
theorem Running.raise_safe {s : State} (h : Running s) {c : Cause} (hc : c.cls = .malformed) (info : BitVec 8) :
    Safe (raise c info s) where
  reader := h.reader.of_eq rfl rfl
  history := h.history.of_eq rfl rfl
  status := ⟨by simp, by simp, by simp [hc], by simp [hc, h.eos], by simp⟩
  control := controlOk_of_failed rfl

theorem Running.raiseBuild_safe {s : State} (h : Running s) (e : BuildError) (which : BitVec 8) :
    Safe (raiseBuild e which s) := by
  cases e <;> exact h.raise_safe rfl which

/-- The end of a block is a safe state: the end of the run, or a header expected (43_block_header_stored.md R200). -/
theorem Running.endOfBlock_safe {s : State} (h : Running s) : Safe (endOfBlock s) := by
  rcases endOfBlock_cases s with ⟨hf, he⟩ | ⟨-, he⟩ <;> rw [he]
  · exact {
      reader := h.reader.of_eq rfl rfl
      history := h.history.of_eq rfl rfl
      status := ⟨by simp [h.err], by simp [h.err], by simp [h.err], by simp [h.err, h.eos], fun _ => hf⟩
      control := controlOk_of_done rfl }
  · exact Running.safe (h.setBd_keeps h.err nofun nofun) rfl nofun

/-- The source's end ends a run safely, as `Truncated` (60_exceptions.md R282, R291). -/
theorem unexpectedEnd_safe {s : State} (hreader : ReaderOk s) (hhistory : HistoryOk s) (heos : s.br.eos = true)
    (got : Partial) : Safe (raiseReject (.unexpectedEnd got) s) where
  reader := hreader.of_eq (by simp) (by simp)
  history := hhistory.of_eq (by simp) (by simp)
  status := ⟨by simp [raiseReject], by simp [raiseReject], by simp [raiseReject, Cause.cls],
    by simp [raiseReject, Cause.cls, heos], by simp⟩
  control := controlOk_of_failed (by simp)

/-- With all bits consumed the reader stands at the end of the source, where the end may be seen (10_state.md R25, R26). -/
theorem Running.atEnd_reader {s : State} (h : Running s) :
    ReaderOk { consume (bitsAhead s).length s with br.eos := true } := by
  have hr := h.consume_keeps (Nat.le_refl _)
  have hnil : bitsAhead (consume (bitsAhead s).length s) = [] := by
    rw [(consume_spec h.reader h.eos _ (Nat.le_refl _)).2, List.drop_length]
  have hlen := bitsAhead_length hr.reader hr.eos
  rw [hnil, List.length_nil] at hlen
  have hle := hr.reader.pos_le
  have hrem := (consume (bitsAhead s).length s).br.rem.isLt
  have hle8 := hr.reader.rem_le
  simp only [bitpos] at hlen
  exact ⟨hle, hr.reader.cur_last, fun _ => ⟨BitVec.eq_of_toNat_eq (by simp; omega), by simp only; omega⟩⟩

/-- A read that stops for missing bits only has consumed the bits it read, or found the end and raises safely. -/
theorem Running.read {α : Type} {s : State} (h : Running s) {g : Got State α} {l : Got (List Bool) α}
    (hrel : GotRel (Tracks s) (AtEnd s) g l) (hl : OnlyRunsOut l) :
    (∃ a k rest, g = .ok a (consume k s) ∧ l = .ok a rest ∧ Running (consume k s)) ∨
    (∃ r s', g = .stop r s' ∧ Safe (raiseReject r s')) := by
  cases g <;> cases l <;> simp only [GotRel] at hrel
  · obtain ⟨rfl, k, hk, rfl, -⟩ := hrel
    exact .inl ⟨_, k, _, rfl, rfl, h.consume_keeps hk⟩
  · obtain ⟨rfl, hrel⟩ := hrel
    obtain ⟨got, rfl⟩ := hl _ _ rfl
    rcases hrel with ⟨-, rfl, -⟩ | ⟨hne, -⟩
    · exact .inr ⟨_, _, rfl, unexpectedEnd_safe h.atEnd_reader (h.history.of_eq (by simp) (by simp)) rfl got⟩
    · exact absurd rfl (hne got)

end Sys2Proof.Machine
end

section
/-!
Proofs of the family 10_state: every element that is due settles in a safe state and a phase the state machine allows.
-/

namespace Sys2Proof.Machine

/-! ### Alignment -/

/-- One bit at hand is read as a number. -/
theorem readUint_one {s : State} {b : Bool} {t : State} (h : readBitOrEnd s = (some b, t)) :
    readUint 1 s = .ok b.toNat t := by
  simp [readUint, readUintFrom, Config.maxUint, readBits, bitReader, h, Got.bind]

theorem bitPosition_eq_zero {s : State} : bitPosition s = 0 ↔ s.br.rem = 0 := by
  have hlt := s.br.rem.isLt
  have hzero : (0 : BitVec 3).toNat = 0 := rfl
  rw [bitPosition, ← BitVec.toNat_inj, hzero]
  omega

/-- A bit of a byte that has been pulled leaves one less of it. -/
theorem consume_one_rem {s : State} (h : ReaderOk s) (hr : s.br.rem ≠ 0) :
    (consume 1 s).br.rem.toNat = s.br.rem.toNat - 1 := by
  have hle := h.rem_le
  have hlt := s.br.rem.isLt
  have hpos : s.br.rem.toNat ≠ 0 := fun h0 => hr (BitVec.eq_of_toNat_eq (by simpa using h0))
  simp only [consume, bitpos, one_ne_zero, if_false, BitVec.toNat_ofNat]
  omega

theorem rem_le_bitsAhead {s : State} (h : ReaderOk s) (he : s.br.eos = false) :
    s.br.rem.toNat ≤ (bitsAhead s).length := by
  have hlen := bitsAhead_length h he
  have hle := h.rem_le
  have hpos := h.pos_le
  rw [bitpos] at hlen
  omega

/-- Aligning consumes what is left of the byte that has been pulled (40_bit_reader.md R134). -/
theorem alignLoop_eq {k : Nat} {s : State} (h : ReaderOk s) (he : s.br.eos = false) (hk : s.br.rem.toNat ≤ k) :
    alignLoop k s = .ok () (consume s.br.rem.toNat s) := by
  induction k generalizing s with
  | zero => rw [Nat.le_zero.mp hk]; rfl
  | succ k ih =>
    rw [alignLoop]
    by_cases hr : s.br.rem = 0
    · rw [if_pos (bitPosition_eq_zero.mpr hr), hr]; rfl
    · have hpos : s.br.rem.toNat ≠ 0 := fun h0 => hr (BitVec.eq_of_toNat_eq (by simpa using h0))
      have hahead := rem_le_bitsAhead h he
      obtain ⟨b, rest, hb⟩ := List.exists_cons_of_length_pos (show 0 < (bitsAhead s).length by omega)
      obtain ⟨hbit, -, hreader⟩ := readBitOrEnd_cons h he hb
      have hrem := consume_one_rem h hr
      rw [if_neg (fun h0 => hr (bitPosition_eq_zero.mp h0)), readUint_one hbit]
      simp only [Got.bind]
      rw [ih hreader (by simpa using he) (by omega), consume_consume h, hrem]
      congr 2
      omega

theorem alignToByte_eq {s : State} (h : ReaderOk s) (he : s.br.eos = false) :
    alignToByte s = .ok () (consume s.br.rem.toNat s) :=
  alignLoop_eq h he (Nat.le_of_lt_succ s.br.rem.isLt)

/-- After the bits left of a byte the reader stands at a byte boundary. -/
theorem consume_rem_rem {s : State} (h : ReaderOk s) : (consume s.br.rem.toNat s).br.rem = 0 := by
  have hle := h.rem_le
  have hzero : (0 : BitVec 3).toNat = 0 := rfl
  by_cases hr : s.br.rem.toNat = 0
  · rw [hr, consume_zero]; exact BitVec.eq_of_toNat_eq (by simpa using hr)
  · apply BitVec.eq_of_toNat_eq
    simp only [consume, bitpos, hr, if_false, BitVec.toNat_ofNat, hzero]
    omega

/-! ### Settling -/

/-- A block's phase. -/
def InBlock (b : BlockDecoder) : Prop :=
  b.phase = .storedBlock ∨ b.phase = .fixedHuffmanBlock ∨ b.phase = .dynamicHuffmanBlock

theorem InBlock.notDone {b : BlockDecoder} (h : InBlock b) : b.phase ≠ .done := by
  rcases h with h | h | h <;> rw [h] <;> nofun

theorem InBody.inBlock {s : State} (h : InBody s) : InBlock s.bd := by
  rcases h with ⟨h, -⟩ | ⟨h, -⟩
  · exact .inr (.inl h)
  · exact .inr (.inr h)

/-- The state machine of the phases (10_state.md R33): what a step may make of the block decoder. -/
def PhaseMove (b c : BlockDecoder) : Prop :=
  c.phase = b.phase ∨ (c.phase = .failed ∧ b.phase ≠ .done) ∨
    (b.phase = .readingHeader ∧ InBlock c) ∨
    (InBlock b ∧ ((c.phase = .readingHeader ∧ b.bfinal = false) ∨ (c.phase = .done ∧ b.bfinal = true)))

/-- An outcome that leads from the block decoder `b` to a safe state, by a move of the phases. -/
def Settles (b : BlockDecoder) (o : Host.Outcome State Fault Refusal) : Prop :=
  ∃ t, o = .next t ∧ Safe t ∧ PhaseMove b t.bd

theorem settles_failed {b : BlockDecoder} {t : State} (hb : b.phase ≠ .done) (ht : Safe t) (hp : t.bd.phase = .failed) :
    Settles b (.next t) := ⟨t, rfl, ht, .inr (.inl ⟨hp, hb⟩)⟩

/-- A malformed element settles by its failure. -/
theorem Running.settles_raise {s : State} (h : Running s) {b : BlockDecoder} (hb : b.phase ≠ .done) {c : Cause}
    (hc : c.cls = .malformed) (info : BitVec 8) : Settles b (.next (raise c info s)) :=
  settles_failed hb (h.raise_safe hc info) rfl

/-- A change of the block decoder within the phase settles where what is due next is there. -/
theorem Running.settles_setBd {s : State} (h : Running s) {b : BlockDecoder} (herr : b.err = none)
    (hphase : b.phase = s.bd.phase) (hdue : Due { s with bd := b }) (hexp : b.expect ≠ .storedLen) :
    Settles s.bd (.next { s with bd := b }) :=
  ⟨_, rfl, (h.setBd_keeps herr (hphase ▸ h.notDone) (hphase ▸ h.notFailed)).safe hdue fun he => absurd he hexp,
    .inl hphase⟩

/-- The end of a block settles: `Done` after the final one, else the header (43_block_header_stored.md R200). -/
theorem Running.settles_endOfBlock {s : State} (h : Running s) {b : BlockDecoder} (hb : InBlock b)
    (hfinal : s.bd.bfinal = b.bfinal) : Settles b (.next (endOfBlock s)) := by
  refine ⟨_, rfl, h.endOfBlock_safe, .inr (.inr (.inr ⟨hb, ?_⟩))⟩
  rw [endOfBlock_bd_phase, hfinal]
  cases b.bfinal
  · exact .inl ⟨rfl, rfl⟩
  · exact .inr ⟨rfl, rfl⟩

/-! ### The elements -/

/-- The dispatch settles for each type (43_block_header_stored.md R190 to R194). -/
theorem settles_dispatch {s : State} (h : Running s) (hp : s.bd.phase = .readingHeader) (f : Bool) (t : BitVec 2) :
    Settles s.bd (exec (btypeInstr f t) s) := by
  unfold btypeInstr
  split_ifs
  · have hstored : Running { s with bd.phase := .storedBlock } := h.setBd_keeps h.err nofun nofun
    have hall := hstored.consume_keeps (rem_le_bitsAhead hstored.reader hstored.eos)
    have hrem := consume_rem_rem hstored.reader
    simp only [exec, execBtype0Stored, alignToByte_eq hstored.reader hstored.eos]
    refine ⟨_, rfl, Running.safe (hall.setBd_keeps hall.err hall.notDone hall.notFailed) ?_ fun _ => hrem,
      .inr (.inr (.inl ⟨hp, .inl ?_⟩))⟩ <;> simp [Due]
  · exact ⟨_, rfl, Running.safe (h.setBd_keeps h.err nofun nofun) (.inl ⟨rfl, rfl, rfl⟩) nofun,
      .inr (.inr (.inl ⟨hp, .inr (.inl rfl)⟩))⟩
  · exact ⟨_, rfl, Running.safe (h.setBd_keeps h.err nofun nofun) rfl nofun,
      .inr (.inr (.inl ⟨hp, .inr (.inr rfl)⟩))⟩
  · exact h.settles_raise h.notDone rfl 0

/-- The data of a stored block settle: the block's end, or the source's (43_block_header_stored.md R197). -/
theorem settles_storedData {b : BlockDecoder} (hb : InBlock b) (k : Nat) {s : State} (h : Running s)
    (hfinal : s.bd.bfinal = b.bfinal) : Settles b (.next (storedData k s)) := by
  induction k generalizing s with
  | zero => exact h.settles_endOfBlock hb hfinal
  | succ k ih =>
    simp only [storedData]
    rcases h.read (readUint_bitReader h.reader h.eos 8) (readUintFrom_onlyRunsOut _ (by decide) _) with
      ⟨v, j, rest, hread, -, hs'⟩ | ⟨r, s', hread, hsafe⟩ <;> rw [hread]
    · have ht := hs'.emit_keeps (BitVec.ofNat 8 v)
      exact ih (ht.setBd_keeps ht.err ht.notDone ht.notFailed) (by simpa using hfinal)
    · exact settles_failed hb.notDone hsafe (by simp)

theorem settles_storedLen {s : State} (h : Running s) (hp : s.bd.phase = .storedBlock) (len nlen : BitVec 16) :
    Settles s.bd (execStoredLenNlen len nlen s) := by
  have ht : Running { s with bd.len := len, bd.nlen := nlen } := h.setBd_keeps h.err h.notDone h.notFailed
  unfold execStoredLenNlen
  simp only
  split
  · exact ht.settles_raise h.notDone rfl 0
  · exact settles_storedData (.inl hp) _ (ht.setBd_keeps h.err h.notDone h.notFailed) rfl

/-- Padding keeps the distance lengths within their alphabet (44_dynamic_header.md R224). -/
theorem padDistLens_length_le {lens : List (BitVec 4)} (h : lens.length ≤ 32) : (padDistLens lens).length ≤ 32 := by
  unfold padDistLens
  split
  · simp only [List.length_set, List.length_append, List.length_replicate]; omega
  · exact h

/-- The construction of the block's codes settles: the body is due with accepted codes, or the construction fails
(44_dynamic_header.md R221 to R226). -/
theorem settles_splitAndBuild {s : State} (h : Running s) (hp : s.bd.phase = .dynamicHuffmanBlock) :
    Settles s.bd (.next (splitAndBuild s)) := by
  rcases splitAndBuild_cases s with ⟨e, -, hsplit⟩ | ⟨ll, hll, hsplit⟩ <;> rw [hsplit]
  · exact settles_failed h.notDone (h.raiseBuild_safe e 1) (by simp)
  · have hllOk : AcceptedCode 288 ll := ⟨_, by
      have := s.bd.hlit.isLt
      simp only [List.length_take, countLL]; omega, hll⟩
    have hnd : countD s.bd.hdist ≤ 32 := by have := s.bd.hdist.isLt; simp only [countD]; omega
    have ht : Running { s with bd.llCode := ll } := h.setBd_keeps h.err h.notDone h.notFailed
    rcases buildDistCode_cases ((s.bd.codeLen.toList.drop (countLL s.bd.hlit)).take (countD s.bd.hdist))
      { s with bd.llCode := ll } with ⟨-, hd⟩ | ⟨-, e, -, hd⟩ | ⟨-, d, hbuild, hd⟩ <;> rw [hd]
    · exact h.settles_setBd h.err rfl (.inr ⟨hp, rfl, hllOk, nofun⟩) nofun
    · exact settles_failed h.notDone (ht.raiseBuild_safe e 2) (by simp)
    · have hdOk : AcceptedCode 32 d :=
        ⟨_, padDistLens_length_le ((List.length_take_le _ _).trans hnd), hbuild⟩
      exact h.settles_setBd h.err rfl (.inr ⟨hp, rfl, hllOk, fun _ => hdOk⟩) nofun

/-- A run of code lengths settles where the header still needs some (44_dynamic_header.md R214 to R219). -/
theorem settles_codeLengthRun {s : State} (h : Running s) (hp : s.bd.phase = .dynamicHuffmanBlock)
    (hexp : s.bd.expect = .clsym) (hcode : AcceptedCode 19 s.bd.clCode) (hidx : s.bd.idx.toNat < codeLenCount s) (run : Nat)
    (val : BitVec 4) : Settles s.bd (codeLengthRun run val s) := by
  have hwith : Running (withRun s (run, val)) := h.setBd_keeps h.err h.notDone h.notFailed
  obtain ⟨t, ht⟩ : ∃ t, codeLengthRun run val s = .next t := by
    unfold codeLengthRun; split_ifs <;> exact ⟨_, rfl⟩
  rw [ht]
  rcases codeLengthRun_cases ht with ⟨hge, -⟩ | ⟨-, -, rfl⟩ | ⟨-, hlt, rfl⟩ | ⟨-, -, rfl⟩
  · omega
  · exact h.settles_raise h.notDone rfl 0
  · have hcount : codeLenCount s ≤ 320 := by
      have h1 := s.bd.hlit.isLt
      have h2 := s.bd.hdist.isLt
      simp only [codeLenCount, countLL, countD]; omega
    refine h.settles_setBd h.err rfl ?_ (by simp [hexp])
    simp only [Due, hexp]
    refine ⟨hp, hcode, ?_⟩
    rw [BitVec.toNat_ofNat, Nat.mod_eq_of_lt (by omega)]
    exact hlt
  · exact settles_splitAndBuild hwith hp

/-- A code-length symbol settles (44_dynamic_header.md R214 to R219). -/
theorem settles_clsym {s : State} (h : Running s) (hp : s.bd.phase = .dynamicHuffmanBlock) (hexp : s.bd.expect = .clsym)
    (hcode : AcceptedCode 19 s.bd.clCode) (hidx : s.bd.idx.toNat < codeLenCount s) (sym x : Nat) :
    Settles s.bd (clMeaning sym x s) := by
  have run := settles_codeLengthRun h hp hexp hcode hidx
  unfold clMeaning
  split_ifs
  · exact run _ _
  · exact h.settles_raise h.notDone rfl 0
  · exact run _ _
  · exact run _ _
  · exact run _ _

/-- The construction of the code-length code settles: its symbols are due, or it fails (44_dynamic_header.md R213). -/
theorem settles_buildClCode {s : State} (h : Running s) (hp : s.bd.phase = .dynamicHuffmanBlock) :
    Settles s.bd (.next (buildClCode s)) := by
  rcases buildClCode_cases s with ⟨e, -, hb⟩ | ⟨code, hbuild, hb⟩ <;> rw [hb]
  · exact settles_failed h.notDone (h.raiseBuild_safe e 0) (by simp)
  · exact h.settles_setBd h.err rfl ⟨hp, ⟨_, by simp, hbuild⟩, by simp [codeLenCount, countLL]⟩ nofun

/-- A code-length-code length settles where one is missing (44_dynamic_header.md R212, R213). -/
theorem settles_cllen {s : State} (h : Running s) (hp : s.bd.phase = .dynamicHuffmanBlock) (hexp : s.bd.expect = .cllen)
    (hpos : s.bd.clPos.toNat < countCl s.bd.hclen) (v : BitVec 3) : Settles s.bd (execCllen v s) := by
  have hcount : countCl s.bd.hclen ≤ 19 := by have := s.bd.hclen.isLt; simp only [countCl]; omega
  rw [execCllen, if_neg (by omega)]
  simp only
  split
  · exact settles_buildClCode (h.setBd_keeps h.err h.notDone h.notFailed) hp
  · refine h.settles_setBd h.err rfl ?_ (by simp [hexp])
    simp only [Due, hexp]
    refine ⟨hp, ?_⟩
    have hone : (1 : BitVec 5).toNat = 1 := rfl
    rw [BitVec.toNat_add, hone, Nat.mod_eq_of_lt (by omega)]
    omega

/-- The run lengths lie in 3..258 (45_huffman_body.md R252). -/
theorem lengthBase_add_range {sym x : Nat} (h1 : 257 ≤ sym) (h2 : sym ≤ 285) (hx : x < 2 ^ lengthExtraBits sym) :
    3 ≤ lengthBase sym + x ∧ lengthBase sym + x ≤ 258 := by
  interval_cases sym <;> simp [lengthBase, lengthExtraBits] at hx ⊢ <;> omega

/-- A literal/length symbol settles in a block's body (45_huffman_body.md R241 to R247). -/
theorem settles_litlen {s : State} (h : Running s) (hbody : InBody s) (hexp : s.bd.expect = .litlen) {sym x : Nat}
    (hx : x < 2 ^ lengthExtraBits sym) : Settles s.bd (litlenMeaning sym x s) := by
  unfold litlenMeaning
  split_ifs with hlit heob hlen
  · refine ⟨_, rfl, (h.emit_keeps _).safe ?_ (by simp [hexp]), .inl (by simp)⟩
    refine Due.of_bd (s := s) ?_ (emit_bd _ _)
    simpa only [Due, hexp] using hbody
  · exact h.settles_endOfBlock hbody.inBlock rfl
  · obtain ⟨hmin, hmax⟩ := lengthBase_add_range (by omega) hlen hx
    unfold lengthSymbol
    split
    · rename_i hd
      refine h.settles_setBd h.err rfl ⟨hbody, hd, ?_⟩ nofun
      rw [RunLenOk, BitVec.toNat_ofNat, Nat.mod_eq_of_lt (by omega)]
      exact ⟨hmin, hmax⟩
    · exact h.settles_raise h.notDone rfl 0
  · exact h.settles_raise h.notDone rfl 0

/-- A distance symbol settles in a block's body, a run length waiting (45_huffman_body.md R249 to R253). -/
theorem settles_dist {s : State} (h : Running s) (hbody : InBody s) (hrun : RunLenOk s) (sym x : Nat) :
    Settles s.bd (distMeaning sym x s) := by
  unfold distMeaning
  split
  · have ht : Running { s with bd.expect := .litlen } := h.setBd_keeps h.err h.notDone h.notFailed
    obtain ⟨t, hnext⟩ : ∃ t, distanceSymbol (distBase sym + x) s = .next t := by
      unfold distanceSymbol; split_ifs <;> exact ⟨_, rfl⟩
    rw [hnext]
    rcases distanceSymbol_cases hnext with ⟨hno, -⟩ | ⟨-, -, rfl⟩ | ⟨-, -, -, bs, -, rfl⟩
    · exact absurd hrun hno
    · exact ht.settles_raise h.notDone rfl 0
    · refine ⟨_, rfl, (ht.emitAll_keeps bs).safe ?_ (by simp), .inl (by simp)⟩
      exact Due.of_bd (s := { s with bd.expect := .litlen }) hbody (emitAll_bd _ _)
  · exact h.settles_raise h.notDone rfl 0

/-! ### The step -/

/-- The codes of what is due are accepted. -/
theorem Due.ctxAccepted {s : State} (h : Due s) : ctxAccepted (ctxOf s) := by
  have body : InBody s → AcceptedCode 288 (litlenCode s) ∧ (s.bd.dPresent = true → AcceptedCode 32 (distCode s)) := by
    rintro (⟨-, hfixed, -⟩ | ⟨-, hfixed, hll, hd⟩) <;> simp only [litlenCode, distCode, hfixed]
    · exact ⟨acceptedCode_fixedLL, fun _ => acceptedCode_fixedD⟩
    · exact ⟨hll, hd⟩
  cases he : s.bd.expect <;> simp only [Due, he] at h <;> simp only [ctxOf, he, Machine.ctxAccepted]
  case clsym => exact h.2.1
  case litlen => exact (body h).1
  case dist => exact (body h.1).2 h.2.1

/-- Every element that can stand where the run goes on settles. -/
theorem Running.settles_exec {s : State} (h : Running s) (hdue : Due s) {i : Instr} (hwf : i.wf (ctxOf s) = true) :
    Settles s.bd (exec i s) := by
  cases he : s.bd.expect <;> simp only [Due, he] at hdue <;> simp only [ctxOf, he, Instr.wf] at hwf
  case dispatch =>
    have hform : formOf i = .header s.bd.bfinal s.bd.btype := by simpa using hwf
    have hi := forms i
    rw [Laws.Forms.Statement, hform] at hi
    exact hi ▸ settles_dispatch h hdue _ _
  case header => split at hwf <;> cases hwf; exact h.settles_setBd h.err rfl hdue nofun
  case storedLen => split at hwf <;> cases hwf; exact settles_storedLen h hdue _ _
  case hlit => split at hwf <;> cases hwf; exact h.settles_setBd h.err rfl hdue nofun
  case hdist => split at hwf <;> cases hwf; exact h.settles_setBd h.err rfl hdue nofun
  case hclen => split at hwf <;> cases hwf; exact h.settles_setBd h.err rfl ⟨hdue, by simp [countCl]⟩ nofun
  case cllen => split at hwf <;> cases hwf; exact settles_cllen h hdue.1 he hdue.2 _
  case clsym =>
    obtain ⟨hp, hcode, hidx⟩ := hdue
    split at hwf
    · rename_i hform
      rw [exec_clsym hform]
      exact settles_clsym h hp he hcode hidx _ _
    · cases hwf
  case litlen =>
    split at hwf
    · rename_i hform
      obtain ⟨-, rfl, hx⟩ := form_litlen hform
      rw [exec_litlen hform]
      exact settles_litlen h hdue he hx
    · cases hwf
  case dist =>
    obtain ⟨hbody, -, hrun⟩ := hdue
    split at hwf
    · rename_i hform
      rw [exec_dist hform]
      exact settles_dist h hbody hrun _ _
    · cases hwf

/-- One step of a run that goes on settles: the element due is decoded and executed, or the source's end is found. -/
theorem settles_step {s : State} (h : Safe s) (hrun : ended s = false) : Settles s.bd (step s) := by
  have hs := h.running hrun
  obtain ⟨hdue, -⟩ := (controlOk_iff hs.notDone hs.notFailed).mp h.control
  rw [step, if_neg (by simp [hrun]), fetch]
  rcases hs.read (decode_bitReader hs.reader hs.eos (ctxOf s)) (decode_onlyRunsOut hdue.ctxAccepted _) with
    ⟨i, k, rest, hread, hlist, hs'⟩ | ⟨r, s', hread, hsafe⟩ <;> rw [hread]
  · have hctx : ctxOf (consume k s) = ctxOf s := by simp [ctxOf, litlenCode, distCode]
    have := hs'.settles_exec (hdue.of_bd (consume_bd k s)) (hctx ▸ decode_ok_wf hlist)
    rwa [consume_bd] at this
  · exact settles_failed hs.notDone hsafe (by simp)

/-- A step after the end of a run answers the same state (10_state.md R33). -/
theorem step_of_ended {s : State} (h : ended s = true) : step s = .next s := by rw [step, if_pos h]

/-- Settles O4: a run that has ended stays as it is, a run that goes on settles. -/
theorem everyStepKeepsSafe : Obligations.EveryStepKeepsSafe := by
  intro s h
  cases hrun : ended s with
  | true => exact ⟨s, step_of_ended hrun, h⟩
  | false =>
    obtain ⟨t, hstep, ht, -⟩ := settles_step h hrun
    exact ⟨t, hstep, ht⟩

/-- Settles O57: a run that has ended stays as it is, a run that goes on makes a move of the phases. -/
theorem phasesFollowTheStateMachine : Obligations.PhasesFollowTheStateMachine := by
  intro s t h hstep
  cases hrun : ended s with
  | true =>
    rw [step_of_ended hrun] at hstep
    cases hstep
    exact .inl rfl
  | false =>
    obtain ⟨u, hu, -, hmove⟩ := settles_step h hrun
    rw [hu] at hstep
    cases hstep
    exact hmove

/-- Settles O2: at reset the source is untouched, the output empty and the header expected. -/
theorem everyStartIsSafe : Obligations.EveryStartIsSafe := by
  have start : ∀ bytes : List Byte, Safe (startOn bytes) := fun bytes => Running.safe
    { reader := ⟨Nat.zero_le _, fun h => absurd rfl h, nofun⟩
      history := ⟨Memory.reset_wf, rfl, rfl, fun d h1 h2 => absurd (h1.trans h2) (by simp [startOn, State.reset])⟩
      eos := rfl
      err := rfl
      notDone := nofun
      notFailed := nofun } rfl nofun
  exact ⟨start [], start⟩

end Sys2Proof.Machine
end

section
/-!
Proofs of the family 20_memory: the bits ahead of the reader, decoded as a list, say which instruction a step runs.
-/

namespace Sys2Proof.Machine

/-- How far the reader has come is told by the bits left over. -/
theorem Tracks.eq_consume {s₀ s : State} {bits : List Bool} (h : Tracks s₀ s bits) :
    s = consume ((bitsAhead s₀).length - bits.length) s₀ := by
  obtain ⟨k, hk, rfl, rfl⟩ := h
  rw [List.length_drop, Nat.sub_sub_self hk]

/-- What a list of bits answers, a source that tracks it answers too. -/
theorem GotRel.eq_ok {σ τ α : Type} {R E : σ → τ → Prop} {g : Got σ α} {a : α} {t : τ} (h : GotRel R E g (.ok a t)) :
    ∃ s, g = .ok a s ∧ R s t := by
  cases g with
  | ok b s => exact ⟨s, by rw [h.1], h.2⟩
  | stop r s => exact h.elim

/-- Fetching answers the instruction the bits ahead decode to, with the bits before the rest consumed. -/
theorem fetch_of_decode {s : State} {i : Instr} {rest : List Bool} (h : ReaderOk s) (he : s.br.eos = false)
    (hd : decode listBits (ctxOf s) (bitsAhead s) = .ok i rest) :
    fetch s = .ok i (consume ((bitsAhead s).length - rest.length) s) := by
  have hrel := decode_bitReader h he (ctxOf s)
  rw [hd] at hrel
  obtain ⟨s', hfetch, ht⟩ := hrel.eq_ok
  rw [fetch, hfetch, ← ht.eq_consume]

/-- A step of a run that goes on executes what it fetches. -/
theorem step_of_fetch {s s' : State} {i : Instr} (hrun : ended s = false) (hf : fetch s = .ok i s') :
    step s = exec i s' := by
  simp [step, hrun, hf]

/-- Settles O8: the bit reader delivers the bits ahead, so the step fetches what they decode to. -/
theorem stepRunsTheDecodedInstruction : Obligations.StepRunsTheDecodedInstruction :=
  fun _ _ _ h he hrun hd => step_of_fetch hrun (fetch_of_decode h he hd)

end Sys2Proof.Machine
end

section
/-!
Proofs of the family 30_encoding: the symbols of an accepted code are written and read alike, in both directions, and so is
every element in its context; the fixed codes give the code values of the table.
-/

namespace Sys2Proof.Machine

/-! ### Symbols of an accepted code -/

/-- A symbol has one entry in an accepted code. -/
theorem entry_eq_of_sym {n : Nat} {code : Code} (h : AcceptedCode n code) (hn : n ≤ 320) {d e : Entry} (hd : d ∈ code)
    (he : e ∈ code) (hsym : d.sym = e.sym) : d = e := by
  obtain ⟨lens, hlen, hb⟩ := h
  rw [(build_tiles hb).1] at hd he
  obtain ⟨x, hx, rfl⟩ := List.mem_map.mp hd
  obtain ⟨y, hy, rfl⟩ := List.mem_map.mp he
  rw [tile_eq_of_sym (hlen.trans hn) hx hy hsym]

/-- The code of a symbol is at least one bit long: the key has more than the sentinel (41_canonical_code.md R150). -/
theorem two_le_key {n : Nat} {code : Code} (h : AcceptedCode n code) {e : Entry} (he : e ∈ code) : 2 ≤ e.key.toNat := by
  obtain ⟨lens, -, hb⟩ := h
  obtain ⟨hcode, -, htile⟩ := build_tiles hb
  rw [hcode] at he
  obtain ⟨t, ht, rfl⟩ := List.mem_map.mp he
  obtain ⟨h1, h15, hval, -⟩ := htile t ht
  rw [Tile.entry, sentinelKey_toNat _ _ hval h15]
  have hpow : 2 ^ 1 ≤ 2 ^ t.len := Nat.pow_le_pow_right (by decide) h1
  omega

/-- Bits that lead to a key of an accepted code decode to the symbol stored there. -/
theorem decodeSymbol_of_path {n : Nat} {code : Code} (h : AcceptedCode n code) {e : Entry} (he : e ∈ code) {bs : List Bool}
    (hpath : pathKey 1 bs = e.key.toNat) (rest : List Bool) :
    decodeSymbolFrom listBits code (bs ++ rest) = .ok e.sym.toNat rest := by
  have hkey := two_le_key h he
  obtain ⟨lens, -, hb⟩ := h
  have hne : bs ≠ [] := by rintro rfl; simp only [pathKey] at hpath; omega
  have hlen : bs.length < 16 := by
    have hlow := (pathKey_range bs 1).1
    rw [Nat.one_mul, hpath] at hlow
    exact (Nat.pow_lt_pow_iff_right (by decide)).mp (hlow.trans_lt e.key.isLt)
  exact decodeLoop_hit he (fun d hd k hk => entry_eq_of_prefix hb hd he hk) bs rest 1 15 hne (by omega) hpath

/-- The encoder finds the key of a symbol the table has. -/
theorem keyOfSymbol_of_hasSymbol {code : Code} {sym : Nat} (h : hasSymbol code sym = true) :
    ∃ e ∈ code, e.sym.toNat = sym ∧ keyOfSymbol code sym = some e.key := by
  obtain ⟨e, he⟩ := Option.isSome_iff_exists.mp (List.find?_isSome.mpr (List.any_eq_true.mp h))
  exact ⟨e, List.mem_of_find?_eq_some he, by simpa using List.find?_some he, by rw [keyOfSymbol, he]; rfl⟩

/-- The bits the encoder writes for a symbol lead to its key. -/
theorem pathKey_symbolBits {n : Nat} {code : Code} (h : AcceptedCode n code) {sym : Nat} (hsym : hasSymbol code sym = true) :
    ∃ e ∈ code, e.sym.toNat = sym ∧ pathKey 1 (symbolBits code sym) = e.key.toNat := by
  obtain ⟨e, he, hes, hkey⟩ := keyOfSymbol_of_hasSymbol hsym
  obtain ⟨bs, hbits, hpath, -⟩ := keyBits_spec Config.maxLen e.key.toNat [] (by have := two_le_key h he; omega) e.key.isLt
  refine ⟨e, he, hes, ?_⟩
  simp only [symbolBits, hkey]
  rw [hbits, List.append_nil, hpath]

/-- The code of a symbol decodes to it (30_encoding.md R97 to R100). -/
theorem decodeSymbol_symbolBits {n : Nat} {code : Code} (h : AcceptedCode n code) {sym : Nat}
    (hsym : hasSymbol code sym = true) (rest : List Bool) :
    decodeSymbolFrom listBits code (symbolBits code sym ++ rest) = .ok sym rest := by
  obtain ⟨e, he, rfl, hpath⟩ := pathKey_symbolBits h hsym
  exact decodeSymbol_of_path h he hpath rest

/-- The bits a decoded symbol consumed are its code. -/
theorem bits_eq_of_decodeSymbol {n : Nat} {code : Code} (h : AcceptedCode n code) (hn : n ≤ 320) {bits rest : List Bool}
    {sym : Nat} (hdec : decodeSymbolFrom listBits code bits = .ok sym rest) : bits = symbolBits code sym ++ rest := by
  obtain ⟨bs, e, rfl, he, rfl, hpath, -, -⟩ := decodeLoop_ok 15 1 1 bits rest sym (by decide) (by decide) hdec
  obtain ⟨d, hd, hsym, hpath'⟩ := pathKey_symbolBits h (List.any_eq_true.mpr ⟨e, he, beq_self_eq_true _⟩)
  rw [entry_eq_of_sym h hn hd he (BitVec.eq_of_toNat_eq hsym), ← hpath] at hpath'
  rw [pathKey_inj _ _ hpath']

/-! ### Elements that are a symbol and its extra bits -/

/-- A symbol read, its extra bits follow. -/
theorem decodeElement_of_symbol {code : Code} {width : Nat → Nat} {instr : Nat → Nat → Option Instr} {bits rest : List Bool}
    {sym x : Nat} {i : Instr} (hsym : decodeSymbolFrom listBits code bits = .ok sym (fieldBits (width sym) x ++ rest))
    (hw : width sym ≤ 15) (hx : x < 2 ^ width sym) (hi : instr sym x = some i) :
    decodeElement listBits code width instr bits = .ok i rest := by
  rw [decodeElement, hsym]
  simp only [Got.bind]
  rw [Laws.Forms.readUintFrom_fieldBits _ x rest hw hx]
  simp only [hi, orValueRange]

/-- The extra bits of a code-length symbol that can stand where it does fit the bits the decoder reads there (R216). -/
theorem lt_two_pow_clOperandBits {first : Bool} {sym x : Nat} (hx : x < 2 ^ clExtraBits sym)
    (h16 : first = true → sym = 16 → x = 0) : x < 2 ^ clOperandBits first sym := by
  unfold clOperandBits
  split
  · rename_i h; rw [h16 h.1 h.2]; decide
  · exact hx

theorem decode_clsym {code : Code} {first : Bool} {i : Instr} {sym n x : Nat} {bits rest : List Bool}
    (hform : formOf i = .symbol .clsym sym n x) (h16 : first = true → sym = 16 → x = 0)
    (hsym : decodeSymbolFrom listBits code bits = .ok sym (fieldBits (clOperandBits first sym) x ++ rest)) :
    decode listBits (.clsym code first) bits = .ok i rest := by
  obtain ⟨hi, rfl, hx⟩ := form_clsym hform
  exact decodeElement_of_symbol hsym
    ((clOperandBits_le first sym).trans ((clExtraBits_le sym).trans (by decide))) (lt_two_pow_clOperandBits hx h16) hi

theorem decode_litlen {code : Code} {i : Instr} {sym n x : Nat} {bits rest : List Bool}
    (hform : formOf i = .symbol .litlen sym n x)
    (hsym : decodeSymbolFrom listBits code bits = .ok sym (fieldBits n x ++ rest)) :
    decode listBits (.litlen code) bits = .ok i rest := by
  obtain ⟨hi, rfl, hx⟩ := form_litlen hform
  exact decodeElement_of_symbol hsym ((lengthExtraBits_le sym).trans (by decide)) hx hi

theorem decode_dist {code : Code} {i : Instr} {sym n x : Nat} {bits rest : List Bool}
    (hform : formOf i = .symbol .dist sym n x)
    (hsym : decodeSymbolFrom listBits code bits = .ok sym (fieldBits n x ++ rest)) :
    decode listBits (.dist code) bits = .ok i rest := by
  obtain ⟨hi, rfl, hx⟩ := form_dist hform
  exact decodeElement_of_symbol hsym ((distExtraBits_le sym).trans (by decide)) hx hi

/-- A decoded element's bits are its symbol's code and the extra bits read. -/
theorem bits_eq_of_decodeElement {n : Nat} {code : Code} (h : AcceptedCode n code) (hn : n ≤ 320) {width : Nat → Nat}
    {instr : Nat → Nat → Option Instr} {bits rest : List Bool} {i : Instr}
    (hdec : decodeElement listBits code width instr bits = .ok i rest) :
    ∃ sym x, instr sym x = some i ∧ x < 2 ^ width sym ∧ bits = symbolBits code sym ++ fieldBits (width sym) x ++ rest := by
  obtain ⟨sym, bits', hsym, hextra⟩ := Got.bind_eq_ok.mp hdec
  obtain ⟨x, bits'', hx, hinstr⟩ := Got.bind_eq_ok.mp hextra
  obtain ⟨-, hlt, hbits⟩ := readUintFrom_inv hx
  unfold orValueRange at hinstr
  split at hinstr
  · rename_i hi
    cases hinstr
    exact ⟨sym, x, hi, hlt, by rw [bits_eq_of_decodeSymbol h hn hsym, hbits, List.append_assoc]⟩
  · cases hinstr

/-! ### What a form says, and what the encoder writes for it -/

theorem form_header {i : Instr} {f : Bool} {t : BitVec 2} (h : formOf i = .header f t) : btypeInstr f t = i := by
  have := forms i
  rwa [Laws.Forms.Statement, h] at this

theorem form_field {i : Instr} {bits : List Bool} (h : formOf i = .field bits) :
    ∃ c, ∀ rest, decode listBits c (bits ++ rest) = .ok i rest := by
  have := forms i
  rwa [Laws.Forms.Statement, h] at this

theorem encode_header {i : Instr} {f : Bool} {t : BitVec 2} (c : Ctx) (hform : formOf i = .header f t) : encode c i = [] := by
  rw [encode, hform]

theorem encode_field {i : Instr} {bits : List Bool} (c : Ctx) (hform : formOf i = .field bits) : encode c i = bits := by
  rw [encode, hform]

theorem encode_litlen {i : Instr} {a : Alphabet} {sym n x : Nat} (code : Code) (hform : formOf i = .symbol a sym n x) :
    encode (.litlen code) i = symbolBits code sym ++ fieldBits n x := by
  rw [encode, hform]

theorem encode_dist {i : Instr} {a : Alphabet} {sym n x : Nat} (code : Code) (hform : formOf i = .symbol a sym n x) :
    encode (.dist code) i = symbolBits code sym ++ fieldBits n x := by
  rw [encode, hform]

theorem encode_clsym {i : Instr} {sym n x : Nat} (code : Code) (first : Bool) (hform : formOf i = .symbol .clsym sym n x) :
    encode (.clsym code first) i = symbolBits code sym ++ fieldBits (clOperandBits first sym) x := by
  obtain ⟨-, rfl, -⟩ := form_clsym hform
  rw [encode, hform]
  rfl

/-! ### Where an element can stand -/

/-- A fixed-width field can stand in one context only. -/
theorem ctx_eq_of_field {c d : Ctx} {i : Instr} {bits : List Bool} (hform : formOf i = .field bits) (hc : i.wf c = true)
    (hd : i.wf d = true) : c = d := by
  cases c with
  | header | storedLen | hlit | hdist | hclen | cllen =>
    simp only [Instr.wf] at hc
    split at hc
    · cases d <;> simp [Instr.wf, formOf] at hd ⊢
    · cases hc
  | dispatch | clsym | litlen | dist => simp [Instr.wf, hform] at hc

/-- A field's bits decode to it where it can stand. -/
theorem decode_encode_field {c : Ctx} {i : Instr} {bits : List Bool} (hform : formOf i = .field bits) (hwf : i.wf c = true)
    (rest : List Bool) : decode listBits c (encode c i ++ rest) = .ok i rest := by
  obtain ⟨d, hdec⟩ := form_field hform
  rw [ctx_eq_of_field hform hwf (decode_ok_wf (hdec [])), encode_field d hform]
  exact hdec rest

theorem wf_clsym {code : Code} {first : Bool} {i : Instr} (h : i.wf (.clsym code first) = true) :
    ∃ sym n x, formOf i = .symbol .clsym sym n x ∧ hasSymbol code sym = true ∧ (first = true → sym = 16 → x = 0) := by
  simp only [Instr.wf] at h
  split at h
  · rename_i sym n x hform
    simp only [Bool.and_eq_true] at h
    exact ⟨sym, n, x, hform, h.1, by rintro rfl rfl; simpa using h.2⟩
  · cases h

theorem wf_litlen {code : Code} {i : Instr} (h : i.wf (.litlen code) = true) :
    ∃ sym n x, formOf i = .symbol .litlen sym n x ∧ hasSymbol code sym = true := by
  simp only [Instr.wf] at h
  split at h
  · rename_i sym n x hform; exact ⟨sym, n, x, hform, h⟩
  · cases h

theorem wf_dist {code : Code} {i : Instr} (h : i.wf (.dist code) = true) :
    ∃ sym n x, formOf i = .symbol .dist sym n x ∧ hasSymbol code sym = true := by
  simp only [Instr.wf] at h
  split at h
  · rename_i sym n x hform; exact ⟨sym, n, x, hform, h⟩
  · cases h

/-! ### Both directions -/

/-- Settles O10: a dispatch has no bits, a field can stand in one context only, and a symbol's code leads to its key. -/
theorem encodedElementsDecodeBack : Obligations.EncodedElementsDecodeBack := by
  intro c i rest hc hwf
  cases c with
  | header | storedLen | hlit | hdist | hclen | cllen =>
    have h := hwf
    simp only [Instr.wf] at h
    split at h
    · exact decode_encode_field rfl hwf rest
    · cases h
  | dispatch f t =>
    have hform : formOf i = .header f t := by simpa [Instr.wf] using hwf
    rw [encode_header _ hform, ← form_header hform]
    rfl
  | clsym code first =>
    obtain ⟨sym, n, x, hform, hsym, h16⟩ := wf_clsym hwf
    rw [encode_clsym code first hform, List.append_assoc]
    exact decode_clsym hform h16 (decodeSymbol_symbolBits hc hsym _)
  | litlen code =>
    obtain ⟨sym, n, x, hform, hsym⟩ := wf_litlen hwf
    rw [encode_litlen code hform, List.append_assoc]
    exact decode_litlen hform (decodeSymbol_symbolBits hc hsym _)
  | dist code =>
    obtain ⟨sym, n, x, hform, hsym⟩ := wf_dist hwf
    rw [encode_dist code hform, List.append_assoc]
    exact decode_dist hform (decodeSymbol_symbolBits hc hsym _)

/-- A number read into a field of its width is the field's bits. -/
theorem bits_eq_of_readUint {n v : Nat} {bits rest : List Bool} (h : readUintFrom listBits n bits = .ok v rest) :
    bits = fieldBits n (BitVec.ofNat n v).toNat ++ rest := by
  obtain ⟨-, hv, rfl⟩ := readUintFrom_inv h
  rw [BitVec.toNat_ofNat, Nat.mod_eq_of_lt hv]

/-- One bit read as a flag is the flag. -/
theorem bits_eq_of_readFlag {v : Nat} {bits rest : List Bool} (h : readUintFrom listBits 1 bits = .ok v rest) :
    bits = decide (v = 1) :: rest := by
  obtain ⟨-, hv, rfl⟩ := readUintFrom_inv h
  rw [fieldBits, Nat.mod_eq_of_lt (show v < 2 from hv)]
  rfl

/-- The bits the decoder consumed are the encoding of its answer. -/
theorem bits_eq_of_decode {c : Ctx} {i : Instr} {bits rest : List Bool} (hc : ctxAccepted c)
    (h : decode listBits c bits = .ok i rest) : bits = encode c i ++ rest := by
  cases c with
  | header =>
    obtain ⟨f, s, hf, h⟩ := Got.bind_eq_ok.mp h
    obtain ⟨t, s, ht, h⟩ := Got.bind_eq_ok.mp h
    cases h
    rw [bits_eq_of_readFlag hf, bits_eq_of_readUint (Got.noting_eq_ok.mp ht)]
    rfl
  | dispatch f t => cases h; rw [encode_header _ (formOf_btypeInstr f t)]; rfl
  | storedLen =>
    obtain ⟨len, s, hlen, h⟩ := Got.bind_eq_ok.mp h
    obtain ⟨nlen, s, hnlen, h⟩ := Got.bind_eq_ok.mp h
    cases h
    rw [readU16From_inv hlen, readU16From_inv (Got.noting_eq_ok.mp hnlen), ← List.append_assoc]
    rfl
  | hlit | hdist | hclen | cllen =>
    obtain ⟨v, s, hv, h⟩ := Got.bind_eq_ok.mp h
    cases h
    exact bits_eq_of_readUint hv
  | clsym code first =>
    obtain ⟨sym, x, hi, hx, rfl⟩ := bits_eq_of_decodeElement hc (by decide) h
    have hform := formOf_of_clInstr hi (hx.trans_le (Nat.pow_le_pow_right (by decide) (clOperandBits_le first sym)))
    rw [encode_clsym code first hform]
  | litlen code =>
    obtain ⟨sym, x, hi, hx, rfl⟩ := bits_eq_of_decodeElement hc (by decide) h
    rw [encode_litlen code (formOf_of_litlenInstr hi hx)]
  | dist code =>
    obtain ⟨sym, x, hi, hx, rfl⟩ := bits_eq_of_decodeElement hc (by decide) h
    rw [encode_dist code (formOf_of_distInstr hi hx)]

/-- Settles O11: each read says which bits it consumed, and a symbol has one code. -/
theorem decodedBitsAreTheEncoding : Obligations.DecodedBitsAreTheEncoding :=
  fun _ _ _ _ hc h => ⟨decode_ok_wf h, bits_eq_of_decode hc h⟩

/-! ### The fixed codes -/

/-- The bits of a code value, most significant first, lead to its sentinel key (41_canonical_code.md R150). -/
theorem pathKey_codeValueBits {n w : Nat} (k : Nat) (hw : w < 2 ^ n) : pathKey k (codeValueBits n w) = k * 2 ^ n + w := by
  induction n generalizing w k with
  | zero => simp only [Nat.pow_zero, Nat.lt_one_iff] at hw; subst hw; simp [codeValueBits, fieldBits, pathKey]
  | succ n ih =>
    have hsplit : codeValueBits (n + 1) w = codeValueBits n (w / 2) ++ [decide (w % 2 = 1)] := by
      simp [codeValueBits, fieldBits]
    rw [hsplit, pathKey_append, ih k (by omega), Nat.pow_succ, ← Nat.mul_assoc]
    rcases Nat.mod_two_eq_zero_or_one w with h | h <;> simp [pathKey, h] <;> omega

/-- In an accepted code that holds a run of codes, each code value of the run decodes to its symbol. -/
theorem decodeSymbol_codeRun {n : Nat} {code : Code} (h : AcceptedCode n code) {L V s m sym : Nat}
    (hrun : codeRun L V s m ⊆ code) (hL : L ≤ 15) (hV : V + m ≤ 2 ^ L) (hs : s + m ≤ 512) (hlo : s ≤ sym)
    (hhi : sym < s + m) (rest : List Bool) :
    decodeSymbolFrom listBits code (codeValueBits L (V + (sym - s)) ++ rest) = .ok sym rest := by
  have hmem : (⟨sentinelKey L (V + (sym - s)), BitVec.ofNat 9 (s + (sym - s))⟩ : Entry) ∈ code :=
    hrun (List.mem_map.mpr ⟨sym - s, List.mem_range.mpr (by omega), rfl⟩)
  have hval : V + (sym - s) < 2 ^ L := by omega
  have hdec := decodeSymbol_of_path h hmem
    (by rw [sentinelKey_toNat L _ hval hL, pathKey_codeValueBits 1 hval, Nat.one_mul]) rest
  rwa [BitVec.toNat_ofNat, Nat.mod_eq_of_lt (by omega), Nat.add_sub_cancel' hlo] at hdec

/-- Settles O13: `FIXED_LL_CODE` is four runs of codes, each symbol in one of them. -/
theorem fixedLiteralLengthCodes : Obligations.FixedLiteralLengthCodes := by
  refine ⟨build_fixedLL, fun i sym n x rest hform => decode_litlen hform ?_⟩
  have hlt := sym_lt_of_litlenInstr (form_litlen hform).1
  split_ifs with h1 h2 h3
  · exact decodeSymbol_codeRun acceptedCode_fixedLL (L := 8) (V := 0x30) (s := 0) (m := 144)
      (fun _ h => by simp [fixedLLCode, h]) (by decide) (by decide) (by decide) (by omega) (by omega) _
  · exact decodeSymbol_codeRun acceptedCode_fixedLL (L := 9) (V := 0x190) (s := 144) (m := 112)
      (fun _ h => by simp [fixedLLCode, h]) (by decide) (by decide) (by decide) (by omega) (by omega) _
  · rw [← Nat.zero_add (sym - 256)]
    exact decodeSymbol_codeRun acceptedCode_fixedLL (L := 7) (V := 0) (s := 256) (m := 24)
      (fun _ h => by simp [fixedLLCode, h]) (by decide) (by decide) (by decide) (by omega) (by omega) _
  · exact decodeSymbol_codeRun acceptedCode_fixedLL (L := 8) (V := 0xC0) (s := 280) (m := 8)
      (fun _ h => by simp [fixedLLCode, h]) (by decide) (by decide) (by decide) (by omega) (by omega) _

/-- Settles O14: `FIXED_D_CODE` is one run of 5-bit codes. -/
theorem fixedDistanceCodes : Obligations.FixedDistanceCodes := by
  refine ⟨build_fixedD, fun i sym n x rest hform => decode_dist hform ?_⟩
  have hlt := sym_lt_of_distInstr (form_dist hform).1
  have hdec := decodeSymbol_codeRun acceptedCode_fixedD (L := 5) (V := 0) (s := 0) (m := 32) (List.Subset.refl _)
    (by decide) (by decide) (by decide) (Nat.zero_le sym) (by omega) (fieldBits n x ++ rest)
  rwa [Nat.zero_add, Nat.sub_zero] at hdec

/-- Settles O12: each word is read and decoded. -/
theorem tableWordsDecode : Obligations.TableWordsDecode := by
  unfold Obligations.TableWordsDecode
  decide +kernel

end Sys2Proof.Machine
end

section
/-!
Proofs of the family 40_bit_reader: the cursor determines the reader's registers and the bit it delivers, a number is the
value of the bits at the cursor, and a step raises what the decoder rejects.
-/

namespace Sys2Proof.Machine

/-! ### The registers as functions of the cursor -/

theorem ReaderOk.src_pos_eq {s : State} (h : ReaderOk s) : s.src.pos = (bitpos s + 7) / 8 := by
  have hle := h.rem_le
  have hlt := s.br.rem.isLt
  rw [bitpos]
  omega

theorem ReaderOk.rem_eq {s : State} (h : ReaderOk s) : s.br.rem.toNat = (8 - bitpos s % 8) % 8 := by
  have hle := h.rem_le
  have hlt := s.br.rem.isLt
  rw [bitpos]
  omega

theorem ReaderOk.bitPosition_eq {s : State} (h : ReaderOk s) : bitPosition s = bitpos s % 8 := by
  have hrem := h.rem_eq
  rw [bitPosition]
  omega

/-- Settles O17: a reader in order is at its cursor, and after `k` bits it is a reader in order `k` bits further. -/
theorem consumedBitsAreAccountedFor : Obligations.ConsumedBitsAreAccountedFor := by
  intro s k h he hk
  obtain ⟨hk', hahead⟩ := consume_spec h he k hk
  exact ⟨bitpos_consume h k, hk'.src_pos_eq, hk'.rem_eq, hk'.bitPosition_eq, hahead⟩

/-! ### One bit -/

theorem bitsAhead_eq_nil_iff {s : State} (h : ReaderOk s) (he : s.br.eos = false) :
    bitsAhead s = [] ↔ 8 * s.src.bytes.length ≤ bitpos s := by
  rw [← List.length_eq_zero_iff, bitsAhead_length h he, Nat.sub_eq_zero_iff_le]

/-- The bit at the cursor is bit 0 of the next byte at a byte boundary, and the lowest bit left of the buffered byte within
a byte. -/
theorem readBitOrEnd_fst {s : State} (h : ReaderOk s) (he : s.br.eos = false)
    (hlt : bitpos s < 8 * s.src.bytes.length) : (readBitOrEnd s).1 = some (streamBit s.src.bytes (bitpos s)) := by
  have hrem := s.br.rem.isLt
  by_cases hr : s.br.rem = 0
  · have hpos : bitpos s = 8 * s.src.pos := by simp [bitpos, hr]
    have hbyte := List.getElem?_eq_getElem (show s.src.pos < s.src.bytes.length by omega)
    simp [readBitOrEnd, srcNext, he, hr, hbyte, streamBit, hpos]
  · obtain ⟨hpos, hcur⟩ := h.cur_last hr
    have hne : s.br.rem.toNat ≠ 0 := fun h0 => hr (BitVec.eq_of_toNat_eq (by simpa using h0))
    have hdiv : bitpos s / 8 = s.src.pos - 1 := by rw [bitpos]; omega
    have hmod : bitpos s % 8 = 8 - s.br.rem.toNat := by rw [bitpos]; omega
    rw [readBitOrEnd, he, if_neg Bool.false_ne_true, if_neg hr, streamBit, hdiv, hmod, hcur]
    rfl

/-- Before the end of the stream a reader in order answers the bit at the cursor and is in order one bit further. -/
theorem readBitOrEnd_bit {s : State} (h : ReaderOk s) (he : s.br.eos = false) (hlt : bitpos s < 8 * s.src.bytes.length) :
    readBitOrEnd s = (some (streamBit s.src.bytes (bitpos s)), consume 1 s) ∧ ReaderOk (consume 1 s) := by
  have hne : bitsAhead s ≠ [] := fun hnil => Nat.not_le.mpr hlt ((bitsAhead_eq_nil_iff h he).mp hnil)
  obtain ⟨b, rest, hb⟩ := List.exists_cons_of_ne_nil hne
  obtain ⟨hread, -, hreader⟩ := readBitOrEnd_cons h he hb
  have hbit := readBitOrEnd_fst h he hlt
  rw [hread] at hbit ⊢
  obtain rfl : b = _ := Option.some.inj hbit
  exact ⟨rfl, hreader⟩

/-- Settles O15: the three cases of a bit read; the registers after it are those of the cursor one bit further. -/
theorem readBitDeliversTheStream : Obligations.ReadBitDeliversTheStream := by
  intro s h
  refine ⟨readBitOrEnd_eos, fun he hend => readBitOrEnd_nil h he ((bitsAhead_eq_nil_iff h he).mpr hend), fun he hlt => ?_⟩
  obtain ⟨hread, h'⟩ := readBitOrEnd_bit h he hlt
  have hpos := h.src_pos_eq
  have hrem := h.rem_eq
  have hpos' := h'.src_pos_eq
  have hrem' := h'.rem_eq
  rw [bitpos_consume h 1] at hpos' hrem'
  refine ⟨hread, bitpos_consume h 1, ?_, ?_⟩
  · have hzero : s.br.rem = 0 ↔ s.br.rem.toNat = 0 := BitVec.toNat_inj.symm
    split_ifs with hr <;> rw [hzero] at hr <;> omega
  · apply BitVec.eq_of_toNat_eq
    rw [BitVec.toNat_sub, show (1 : BitVec 3).toNat = 1 from rfl]
    omega

/-! ### A number -/

/-- Enough bits of a list are read as their value, the first one bit 0. -/
theorem readBits_listBits_of_le {n : Nat} {bits : List Bool} (h : n ≤ bits.length) :
    readBits listBits n bits = .ok (bitsValue (bits.take n)) (bits.drop n) := by
  induction n generalizing bits with
  | zero => rfl
  | succ n ih =>
    cases bits with
    | nil => simp at h
    | cons b bits =>
      show (readBits listBits n bits).bind _ = _
      rw [ih (Nat.le_of_succ_le_succ h)]
      rfl

/-- Too few bits of a list run out. -/
theorem readBits_listBits_of_lt {n : Nat} {bits : List Bool} (h : bits.length < n) :
    readBits listBits n bits = .stop (.unexpectedEnd .nothing) [] := by
  induction n generalizing bits with
  | zero => simp at h
  | succ n ih =>
    cases bits with
    | nil => rfl
    | cons b bits =>
      show (readBits listBits n bits).bind _ = _
      rw [ih (Nat.lt_of_succ_lt_succ h)]
      rfl

theorem readUintFrom_of_gt {σ : Type} (src : BitSource σ) {n : Nat} (hn : 15 < n) (s : σ) :
    readUintFrom src n s = .stop (.argOutOfRange n) s := if_pos hn

theorem readUintFrom_of_le {σ : Type} (src : BitSource σ) {n : Nat} (hn : n ≤ 15) (s : σ) :
    readUintFrom src n s = readBits src n s := if_neg (Nat.not_lt.mpr hn)

/-- After the end has been seen no bit is ahead. -/
theorem bitsAhead_of_eos {s : State} (he : s.br.eos = true) : bitsAhead s = [] := if_pos he

/-- After the end has been seen a number of at least one bit runs out, and the state stays. -/
theorem readBits_bitReader_of_eos {n : Nat} {s : State} (he : s.br.eos = true) (hn : 0 < n) :
    readBits bitReader n s = .stop (.unexpectedEnd .nothing) s := by
  cases n with
  | zero => simp at hn
  | succ n => simp only [readBits, bitReader, readBitOrEnd_eos he]

/-- What a list of bits rejects, a source that tracks it rejects too: at its end for missing bits, where the list stands
otherwise. -/
theorem GotRel.eq_stop {σ τ α : Type} {R E : σ → τ → Prop} {g : Got σ α} {r : Reject} {t : τ}
    (h : GotRel R E g (.stop r t)) :
    ∃ s, g = .stop r s ∧ ((∃ got, r = .unexpectedEnd got) ∧ E s t ∨ (∀ got, r ≠ .unexpectedEnd got) ∧ R s t) := by
  cases g with
  | ok a s => exact h.elim
  | stop q s => obtain ⟨rfl, hs⟩ := h; exact ⟨s, rfl, hs⟩

/-- Missing bits leave the source exhausted and its end seen. -/
theorem GotRel.eq_unexpectedEnd {α : Type} {s : State} {g : Got State α} {got : Partial} {rest : List Bool}
    (h : GotRel (Tracks s) (AtEnd s) g (.stop (.unexpectedEnd got) rest)) :
    g = .stop (.unexpectedEnd got) { consume (bitsAhead s).length s with br.eos := true } := by
  obtain ⟨s', hg, ⟨-, hend, -⟩ | ⟨hne, -⟩⟩ := h.eq_stop
  · rw [hg, hend]
  · exact absurd rfl (hne got)

/-- Every other rejection leaves the reader where the list of bits stands. -/
theorem GotRel.eq_rejected {α : Type} {s : State} {g : Got State α} {r : Reject} {rest : List Bool}
    (h : GotRel (Tracks s) (AtEnd s) g (.stop r rest)) (hr : ∀ got, r ≠ .unexpectedEnd got) :
    g = .stop r (consume ((bitsAhead s).length - rest.length) s) := by
  obtain ⟨s', hg, ⟨⟨got, hgot⟩, -⟩ | ⟨-, htracks⟩⟩ := h.eq_stop
  · exact absurd hgot (hr got)
  · rw [hg, htracks.eq_consume]

theorem readUint_of_le {n : Nat} {s : State} (h : ReaderOk s) (hn : n ≤ 15) (hbits : n ≤ (bitsAhead s).length) :
    readUint n s = .ok (bitsValue ((bitsAhead s).take n)) (consume n s) := by
  cases he : s.br.eos with
  | true =>
    rw [bitsAhead_of_eos he] at hbits
    obtain rfl : n = 0 := Nat.le_zero.mp hbits
    rfl
  | false =>
    have hrel := readUint_bitReader h he n
    rw [readUintFrom_of_le _ hn, readBits_listBits_of_le hbits] at hrel
    obtain ⟨s', hread, htracks⟩ := hrel.eq_ok
    rw [hread, htracks.eq_consume, List.length_drop, Nat.sub_sub_self hbits]

theorem readUint_of_lt {n : Nat} {s : State} (h : ReaderOk s) (hn : n ≤ 15) (hbits : (bitsAhead s).length < n) :
    readUint n s = .stop (.unexpectedEnd .nothing) { consume (bitsAhead s).length s with br.eos := true } := by
  cases he : s.br.eos with
  | true =>
    rw [readUint, readUintFrom_of_le _ hn, readBits_bitReader_of_eos he (Nat.zero_lt_of_lt hbits), bitsAhead_of_eos he,
      List.length_nil, consume_zero, ← he]
  | false =>
    have hrel := readUint_bitReader h he n
    rw [readUintFrom_of_le _ hn, readBits_listBits_of_lt hbits] at hrel
    exact hrel.eq_unexpectedEnd

/-- Settles O16: the range check, then the value of the bits ahead, or the end of the source. -/
theorem readUintIsLeastSignificantFirst : Obligations.ReadUintIsLeastSignificantFirst :=
  fun _ s h => ⟨fun hn => readUintFrom_of_gt bitReader hn s, readUint_of_le h, readUint_of_lt h⟩

/-! ### Rejections -/

/-- A read that asks for no number out of range. -/
def InRange {σ α : Type} (g : Got σ α) : Prop := ∀ n s, g ≠ .stop (.argOutOfRange n) s

theorem OnlyRunsOut.inRange {σ α : Type} {g : Got σ α} (h : OnlyRunsOut g) : InRange g := by
  intro n s hg
  obtain ⟨got, hgot⟩ := h _ _ hg
  cases hgot

theorem InRange.bind {σ α β : Type} {g : Got σ α} {f : α → σ → Got σ β} (hg : InRange g) (hf : ∀ a s, InRange (f a s)) :
    InRange (g.bind f) := by
  cases g with
  | ok a s => exact hf a s
  | stop r s => rintro n _ ⟨⟩; exact hg n s rfl

theorem decodeSymbolFrom_inRange {σ : Type} (src : BitSource σ) (code : Code) (s : σ) :
    InRange (decodeSymbolFrom src code s) := by
  intro n s' hstop
  obtain ⟨got, hgot⟩ | hover := decodeLoop_stop hstop
  · cases hgot
  · cases hover

theorem orValueRange_inRange {σ : Type} (i : Option Instr) (s : σ) : InRange (orValueRange i s) := by
  cases i <;> exact nofun

/-- A symbol element asks for one bit at a time, then for the extra bits of its symbol, whatever its table. -/
theorem decodeElement_inRange {σ : Type} (src : BitSource σ) (code : Code) {width : Nat → Nat}
    (instr : Nat → Nat → Option Instr) (hw : ∀ sym, width sym ≤ 15) (s : σ) :
    InRange (decodeElement src code width instr s) :=
  (decodeSymbolFrom_inRange src code s).bind fun sym s =>
    (readUintFrom_onlyRunsOut src (hw sym) s).inRange.bind fun x s => orValueRange_inRange (instr sym x) s

/-- No element asks for more than 15 bits at once, whatever tables are in force. -/
theorem decode_inRange (c : Ctx) (bits : List Bool) : InRange (decode listBits c bits) := by
  have accepted (hc : ctxAccepted c) : InRange (decode listBits c bits) := (decode_onlyRunsOut hc bits).inRange
  cases c with
  | clsym code first =>
    exact decodeElement_inRange _ code _
      (fun sym => (clOperandBits_le first sym).trans ((clExtraBits_le sym).trans (by decide))) bits
  | litlen code => exact decodeElement_inRange _ code _ (fun sym => (lengthExtraBits_le sym).trans (by decide)) bits
  | dist code => exact decodeElement_inRange _ code _ (fun sym => (distExtraBits_le sym).trans (by decide)) bits
  | header | dispatch | storedLen | hlit | hdist | hclen | cllen => exact accepted trivial

/-- A step of a run that goes on raises what its fetch rejects. -/
theorem step_of_reject {s s' : State} {r : Reject} (hrun : ended s = false) (hf : fetch s = .stop r s') :
    step s = .next (raiseReject r s') := by
  simp [step, hrun, hf]

/-- Settles O9: the fetch rejects as the list of bits ahead does, and each rejection's raise writes its record. -/
theorem stepRaisesWhatTheDecoderRejects : Obligations.StepRaisesWhatTheDecoderRejects := by
  intro s r rest h he hrun hd
  have hrel := decode_bitReader h he (ctxOf s)
  rw [hd] at hrel
  have hbd := consume_bd ((bitsAhead s).length - rest.length) s
  refine ⟨?missing, ?overrun, ?range, ?arg, fun _ _ _ => rfl⟩
  case missing =>
    rintro got rfl
    rw [step_of_reject hrun hrel.eq_unexpectedEnd, ← consume_bd (bitsAhead s).length s]
    cases got <;> rfl
  case overrun =>
    rintro rfl
    rw [step_of_reject hrun (hrel.eq_rejected nofun), ← hbd]
    rfl
  case range =>
    rintro rfl
    rw [step_of_reject hrun (hrel.eq_rejected nofun), ← hbd]
    rfl
  case arg =>
    rintro n rfl
    exact decode_inRange _ _ n rest hd

end Sys2Proof.Machine
end

section
/-!
Proofs of the family 41_canonical_code: the outcome of `build` is read off the Kraft sum, an accepted table is its tiles,
each at the canonical place on the line of 15-bit values, and the decoding of a symbol stays within 15 bits.
-/

namespace Sys2Proof.Machine

/-! ### The outcome of `build` -/

/-- The Kraft sum decides what `build` answers (41_canonical_code.md R152, R153, R155). -/
theorem build_outcome (lens : List (BitVec 4)) :
    (kraftSum lens = 2 ^ 15 ∧ ∃ code, build lens = .ok code) ∨
    (2 ^ 15 < kraftSum lens ∧ build lens = .error .overfull) ∨
    (kraftSum lens < 2 ^ 15 ∧ build lens = .error .underfull) := by
  have hsteps := assignLengths_eq lens 15 0 0 (Nat.zero_le _)
  rw [finalCount_kraft] at hsteps
  obtain ⟨hle, code, hok⟩ | ⟨hgt, herr⟩ := hsteps
  · by_cases hfull : kraftSum lens = 2 ^ 15
    · exact .inl ⟨hfull, code, build_ok.mpr (hfull ▸ hok)⟩
    · refine .inr (.inr ⟨by omega, ?_⟩)
      rw [build, show Config.maxLen = 15 from rfl, hok]
      exact if_neg hfull
  · refine .inr (.inl ⟨hgt, ?_⟩)
    rw [build, show Config.maxLen = 15 from rfl, herr]

/-- Settles O18: the three outcomes of `build` exclude one another, as the three cases of the Kraft sum do. -/
theorem buildAcceptsExactlyTheFullCodes : Obligations.BuildAcceptsExactlyTheFullCodes := by
  intro lens
  obtain ⟨hsum, code, hb⟩ | ⟨hsum, hb⟩ | ⟨hsum, hb⟩ := build_outcome lens <;> rw [hb]
  · exact ⟨iff_of_true ⟨code, rfl⟩ hsum, iff_of_false nofun hsum.not_gt, iff_of_false nofun hsum.not_lt⟩
  · exact ⟨iff_of_false (by simp) hsum.ne', iff_of_true rfl hsum, iff_of_false nofun hsum.not_gt⟩
  · exact ⟨iff_of_false (by simp) hsum.ne, iff_of_false nofun hsum.not_gt, iff_of_true rfl hsum⟩

/-! ### The entries of an accepted table -/

theorem Tile.entry_key_toNat {t : Tile} (hval : t.val < 2 ^ t.len) (h15 : t.len ≤ 15) :
    t.entry.key.toNat = 2 ^ t.len + t.val := sentinelKey_toNat _ _ hval h15

/-- The symbols of an alphabet of at most 320 fit the 9 bits of an entry. -/
theorem Tile.entry_sym_toNat {lens : List (BitVec 4)} (hlen : lens.length ≤ 320) {t : Tile} {l : BitVec 4}
    (hl : lens[t.sym]? = some l) : t.entry.sym.toNat = t.sym := by
  have hlt : t.sym < lens.length := (List.getElem?_eq_some_iff.mp hl).1
  rw [Tile.entry, BitVec.toNat_ofNat, Nat.mod_eq_of_lt (by omega)]

/-- Each entry of an accepted table is a tile's, read back without loss. -/
theorem exists_tile_of_mem {lens : List (BitVec 4)} {code : Code} (hlen : lens.length ≤ 320) (hb : build lens = .ok code)
    {e : Entry} (he : e ∈ code) : ∃ t ∈ tilesFrom lens 15 1 0, e.sym.toNat = t.sym ∧ e.key.toNat = 2 ^ t.len + t.val ∧
      t.val < 2 ^ t.len ∧ ∃ l, lens[t.sym]? = some l ∧ l.toNat = t.len ∧ l ≠ 0 := by
  obtain ⟨hcode, -, htile⟩ := build_tiles hb
  rw [hcode] at he
  obtain ⟨t, ht, rfl⟩ := List.mem_map.mp he
  obtain ⟨h1, h15, hval, l, hl, hlt⟩ := htile t ht
  refine ⟨t, ht, Tile.entry_sym_toNat hlen hl, Tile.entry_key_toNat hval h15, hval, l, hl, hlt, ?_⟩
  rintro rfl
  rw [← hlt] at h1
  exact absurd h1 (by decide)

/-- Every coded symbol has a tile. -/
theorem exists_tile_of_coded {lens : List (BitVec 4)} {s : Nat} {l : BitVec 4} (hl : lens[s]? = some l) (hne : l ≠ 0) :
    ∃ t ∈ tilesFrom lens 15 1 0, t.sym = s := by
  have hpos := BitVec.toNat_pos_of_ne_zero hne
  have hlt := l.isLt
  exact ⟨_, (mem_tilesFrom _ _ _ _ _).mpr ⟨l.toNat - 1, s, l, by omega, hl, by omega, rfl⟩, rfl⟩

theorem build_syms_nodup {lens : List (BitVec 4)} {code : Code} (hlen : lens.length ≤ 320) (hb : build lens = .ok code) :
    (code.map fun e => e.sym).Nodup := by
  rw [(build_tiles hb).1, List.map_map]
  exact (tiles_nodup hb).map_on fun _ hx _ hy hsym => tile_eq_of_sym hlen hx hy hsym

theorem build_keys_nodup {lens : List (BitVec 4)} {code : Code} (hb : build lens = .ok code) :
    (code.map fun e => e.key).Nodup := by
  rw [(build_tiles hb).1, List.map_map]
  refine (tiles_nodup hb).map_on fun x hx y hy hkey => (tile_eq_of_prefix hb hx hy (k := 0) ?_).1
  rw [Nat.pow_zero, Nat.div_one]
  exact congrArg BitVec.toNat hkey

/-- Settles O19: the entries are those of the tiles, and there is one tile for each coded symbol. -/
theorem builtTablesHoldEachCodedSymbolOnce : Obligations.BuiltTablesHoldEachCodedSymbolOnce := by
  intro lens code hlen hb
  refine ⟨fun e he => ?entry, fun s l hl hne => ?symbol, build_syms_nodup hlen hb, build_keys_nodup hb⟩
  case entry =>
    obtain ⟨t, -, hsym, hkey, hval, l, hl, hlt, hne⟩ := exists_tile_of_mem hlen hb he
    rw [← hlt] at hkey hval
    exact ⟨l, hsym ▸ hl, hne, by omega, by rw [Nat.pow_succ]; omega⟩
  case symbol =>
    obtain ⟨t, ht, rfl⟩ := exists_tile_of_coded hl hne
    exact ⟨t.entry, (build_tiles hb).1 ▸ List.mem_map_of_mem ht, Tile.entry_sym_toNat hlen hl⟩

/-! ### The canonical order -/

theorem kraftSum_filter_cons (p : BitVec 4 → Bool) (l : BitVec 4) (ls : List (BitVec 4)) :
    kraftSum ((l :: ls).filter p) =
      (if p l = true then (if l = 0 then 0 else 2 ^ (15 - l.toNat)) else 0) + kraftSum (ls.filter p) := by
  rw [List.filter_cons]
  split
  · rfl
  · exact (Nat.zero_add _).symm

theorem lengthCount_cons (L : Nat) (l : BitVec 4) (ls : List (BitVec 4)) :
    lengthCount L (l :: ls) = lengthCount L ls + if l.toNat = L then 1 else 0 := by
  simp only [lengthCount, List.countP_cons, beq_iff_eq]

/-- The symbols of one length have equal shares. -/
theorem kraftSum_filter_eq {l : BitVec 4} (hne : l ≠ 0) (ls : List (BitVec 4)) :
    kraftSum (ls.filter fun k => k == l) = lengthCount l.toNat ls * 2 ^ (15 - l.toNat) := by
  induction ls with
  | nil => exact (Nat.zero_mul _).symm
  | cons m ls ih =>
    rw [kraftSum_filter_cons, ih, lengthCount_cons, Nat.add_mul, Nat.add_comm]
    by_cases hm : m = l
    · subst hm
      rw [if_pos (beq_self_eq_true m), if_neg hne, if_pos rfl, Nat.one_mul]
    · simp [hm, BitVec.toNat_inj]

theorem finalCount_nil (k L : Nat) : finalCount [] k L 0 = 0 := by
  induction k generalizing L with
  | zero => rfl
  | succ k ih => exact ih (L + 1)

/-- The counter before the step of length `l` is the share of the shorter codes. -/
theorem finalCount_shorter {l : BitVec 4} (hne : l ≠ 0) (lens : List (BitVec 4)) :
    finalCount lens (l.toNat - 1) 1 0 * 2 ^ (16 - l.toNat) = kraftSum (lens.filter fun k => decide (k < l)) := by
  have hl := BitVec.toNat_pos_of_ne_zero hne
  have hl16 := l.isLt
  induction lens with
  | nil => rw [finalCount_nil, Nat.zero_mul]; rfl
  | cons m ls ih =>
    rw [finalCount_cons, kraftSum_filter_cons, Nat.add_mul, ih, Nat.add_comm]
    simp only [decide_eq_true_eq, BitVec.lt_def]
    congr 1
    obtain rfl | hm := eq_or_ne m 0
    · simp
    have hm0 := BitVec.toNat_pos_of_ne_zero hm
    by_cases hlt : m.toNat < l.toNat
    · have hexp : 1 + (l.toNat - 1) - 1 - m.toNat + (16 - l.toNat) = 15 - m.toNat := by omega
      rw [if_pos hlt, if_neg hm, if_pos (by omega), ← Nat.pow_add, hexp]
    · rw [if_neg hlt, if_neg (by omega), Nat.zero_mul]

/-- The first value of a length is the counter after the steps before, shifted once (41_canonical_code.md R151). -/
theorem firstValue_eq (lens : List (BitVec 4)) (j L n : Nat) : firstValue lens j L n = 2 * finalCount lens j L n := by
  induction j generalizing L n with
  | zero => rfl
  | succ j ih => exact ih _ _

/-- A tile starts where the shares of the shorter codes and of the earlier symbols of its length end. -/
theorem Tile.start_eq {lens : List (BitVec 4)} {t : Tile} (ht : t ∈ tilesFrom lens 15 1 0) {l : BitVec 4}
    (hl : lens[t.sym]? = some l) : Tile.start t =
      kraftSum (lens.filter fun k => decide (k < l)) + kraftSum ((lens.take t.sym).filter fun k => k == l) := by
  obtain ⟨j, i, m, hj, hm, hmj, rfl⟩ := (mem_tilesFrom _ _ _ _ _).mp ht
  obtain rfl : m = l := Option.some.inj (hm.symm.trans hl)
  have hne : m ≠ 0 := fun h0 => by simp [h0] at hmj; omega
  rw [kraftSum_filter_eq hne, ← finalCount_shorter hne, Tile.start, firstValue_eq, Nat.add_mul, hmj,
    show 1 + j - 1 = j by omega, show 16 - (1 + j) = 15 - (1 + j) + 1 by omega, Nat.pow_succ]
  ring

/-- Settles O20: the padded value of an entry is the start of its tile. -/
theorem codeValuesAreCanonical : Obligations.CodeValuesAreCanonical := by
  intro lens code e l hlen hb he hl
  obtain ⟨t, ht, hsym, hkey, -, m, hm, hmt, -⟩ := exists_tile_of_mem hlen hb he
  rw [hsym] at hl ⊢
  obtain rfl : m = l := Option.some.inj (hm.symm.trans hl)
  rw [← Tile.start_eq ht hl, hkey, hmt, Nat.add_sub_cancel_left]

/-! ### Prefixes -/

/-- Settles O21: keys that are cuts of one another belong to tiles that share a point. -/
theorem builtCodesArePrefixFree : Obligations.BuiltCodesArePrefixFree :=
  fun _ _ _ _ _ hb hd he hk => (entry_eq_of_prefix hb hd he hk).2

/-! ### The decoding of a symbol -/

/-- Over fewer bits than iterations the loop of `decodeSymbol` can stop only at the end of the bits. -/
theorem decodeLoop_stop_of_short {code : Code} {n : Nat} {key : BitVec 16} {bits rest : List Bool} {r : Reject}
    (hlen : bits.length < n) (h : decodeLoop listBits code n key bits = .stop r rest) :
    r = .unexpectedEnd .nothing ∧ rest = [] := by
  induction bits generalizing n key with
  | nil =>
    obtain ⟨n, rfl⟩ := Nat.exists_eq_add_of_lt hlen
    rw [decodeLoop_nil] at h
    cases h
    exact ⟨rfl, rfl⟩
  | cons b bits ih =>
    obtain ⟨n, rfl⟩ : ∃ m, n = m + 1 := ⟨n - 1, by omega⟩
    rw [decodeLoop_cons] at h
    split at h
    · cases h
    · exact ih (by simpa using hlen) h

/-- A decoded symbol is in the table and used at most 15 bits. -/
theorem decodeSymbol_within_fifteen {code : Code} {bits rest : List Bool} {sym : Nat}
    (h : decodeSymbolFrom listBits code bits = .ok sym rest) :
    hasSymbol code sym = true ∧ bits.length ≤ rest.length + 15 := by
  obtain ⟨bs, e, rfl, he, hsym, -, hle, -⟩ := decodeLoop_ok 15 1 1 bits rest sym (by decide) (by decide) h
  refine ⟨List.any_eq_true.mpr ⟨e, he, beq_iff_eq.mpr hsym⟩, ?_⟩
  rw [List.length_append]
  omega

/-- Settles O22: fifteen bits lead to a symbol, as the tiles leave no gap; fewer can only run out. -/
theorem symbolDecodingEndsWithinFifteenBits : Obligations.SymbolDecodingEndsWithinFifteenBits := by
  intro lens code bits hb
  refine ⟨fun r rest hstop => ?stops, fun h15 => ?finds⟩
  case stops =>
    have hshort : bits.length < 15 := by
      by_contra hge
      obtain ⟨sym, rest', hok⟩ := decodeSymbol_ok_of_fifteen hb (Nat.le_of_not_lt hge)
      rw [hok] at hstop
      cases hstop
    obtain ⟨hr, hrest⟩ := decodeLoop_stop_of_short hshort hstop
    exact ⟨hr, hrest, hshort⟩
  case finds =>
    obtain ⟨sym, rest, hok⟩ := decodeSymbol_ok_of_fifteen hb h15
    exact ⟨sym, rest, hok, decodeSymbol_within_fifteen hok⟩

end Sys2Proof.Machine
end

section
/-!
Proofs of the family 42_history_buffer: a copy that passed its check emits one byte after another, each the byte at the copy's
distance in the output so far, and what it does to the cursor, the fill and the memory is what emitting that many bytes does.
-/

namespace Sys2Proof.Machine

/-! ### One byte -/

/-- Settles O23: the window is `HistoryOk.emit_keeps`, and the memory changes by one write at the cursor. -/
theorem emittedBytesKeepTheWindow : Obligations.EmittedBytesKeepTheWindow :=
  fun b s h => ⟨h.emit_keeps b, emit_out b s, Memory.read_write_self h.mem_wf.1 s.hb.cur.toNat b,
    fun _ ha => Memory.read_write_of_ne s.hb.mem b ha⟩

/-! ### The check, and the bytes after it -/

/-- Settles O25: `copy_cases` leaves a distance that fails the check nothing but the failure of R173. -/
theorem copyChecksTheDistanceFirst : Obligations.CopyChecksTheDistanceFirst := by
  intro d n s hd
  rcases copy_cases d n s with ⟨-, heq⟩ | ⟨h1, h2, -⟩
  · exact heq
  · omega

theorem copy_of_inRange {d : Nat} {s : State} (h1 : 1 ≤ d) (h2 : d ≤ s.hb.fill.toNat) (n : Nat) :
    copy d n s = copyLoop n (s.hb.cur - BitVec.ofNat 15 d) s := if_neg (by omega)

/-- The loop of `copy`, cut before its last byte (the definition cuts it behind its first). -/
theorem copyLoop_succ_last (k : Nat) (r : BitVec 15) (s : State) :
    copyLoop (k + 1) r s =
      emit ((copyLoop k r s).hb.mem.read (r + BitVec.ofNat 15 k).toNat) (copyLoop k r s) := by
  induction k generalizing r s with
  | zero => simp [copyLoop]
  | succ k ih =>
    have hr : r + 1 + BitVec.ofNat 15 k = r + BitVec.ofNat 15 (k + 1) := by
      rw [BitVec.add_assoc, Nat.add_comm k 1, BitVec.ofNat_add]
      rfl
    rw [copyLoop, ih, hr]
    rfl

/-- The read index `k` bytes into a copy wraps at the capacity (42_history_buffer.md R175, R177). -/
theorem readIndex_toNat (cur : BitVec 15) {d : Nat} (hd : d ≤ 65536) (k : Nat) :
    (cur - BitVec.ofNat 15 d + BitVec.ofNat 15 k).toNat = (cur.toNat + 65536 - d + k) % 32768 := by
  simp only [BitVec.toNat_add, BitVec.toNat_sub, BitVec.toNat_ofNat]
  omega

/-- Settles O26: the loop cut before its last byte, with the read index in numbers. -/
theorem copyReadsOneByteAfterAnother : Obligations.CopyReadsOneByteAfterAnother := by
  intro d k s h1 h2
  have hd : d ≤ 65536 := h2.trans s.hb.fill.isLt.le
  refine ⟨copy_of_inRange h1 h2 0, ?_⟩
  rw [copy_of_inRange h1 h2, copy_of_inRange h1 h2, copyLoop_succ_last, readIndex_toNat s.hb.cur hd]

/-! ### A list of bytes emitted -/

theorem emit_hb_cur_toNat (b : Byte) (s : State) : (emit b s).hb.cur.toNat = (s.hb.cur.toNat + 1) % 32768 :=
  BitVec.toNat_add s.hb.cur 1

theorem emitAll_hb_cur_toNat (bs : List Byte) (s : State) :
    (emitAll bs s).hb.cur.toNat = (s.hb.cur.toNat + bs.length) % 32768 := by
  induction bs generalizing s with
  | nil => exact (Nat.mod_eq_of_lt s.hb.cur.isLt).symm
  | cons b bs ih =>
    rw [emitAll_cons, ih, emit_hb_cur_toNat, Nat.mod_add_mod, Nat.add_assoc, Nat.add_comm 1, List.length_cons]

theorem HistoryOk.emitAll_hb_fill_toNat {s : State} (h : HistoryOk s) (bs : List Byte) :
    (emitAll bs s).hb.fill.toNat = min (s.hb.fill.toNat + bs.length) 32768 := by
  rw [(h.emitAll_keeps bs).fill_eq, h.fill_eq, emitAll_out, List.length_append, Config.capacity]
  omega

/-- Bytes emitted change the memory only at the indices that the cursor passes. -/
theorem emitAll_read_of_ne {bs : List Byte} {s : State} {a : Nat}
    (ha : ∀ k, k < bs.length → a ≠ (s.hb.cur.toNat + k) % 32768) : (emitAll bs s).hb.mem.read a = s.hb.mem.read a := by
  induction bs generalizing s with
  | nil => rfl
  | cons b bs ih =>
    have hfirst : a ≠ s.hb.cur.toNat := by
      rw [← Nat.mod_eq_of_lt s.hb.cur.isLt]
      exact ha 0 (Nat.succ_pos _)
    have hrest : ∀ k, k < bs.length → a ≠ ((emit b s).hb.cur.toNat + k) % 32768 := fun k hk => by
      rw [emit_hb_cur_toNat, Nat.mod_add_mod, Nat.add_assoc, Nat.add_comm 1]
      exact ha (k + 1) (Nat.succ_lt_succ hk)
    rw [emitAll_cons, ih hrest, emit_hb_mem, Memory.read_write_of_ne _ _ hfirst]

/-! ### The output of a copy -/

theorem copy_eq_emitAll {d : Nat} {s : State} (h1 : 1 ≤ d) (h2 : d ≤ s.hb.fill.toNat) (n : Nat) :
    ∃ bs : List Byte, bs.length = n ∧ copy d n s = emitAll bs s :=
  copy_of_inRange h1 h2 n ▸ copyLoop_cases n _ s

theorem HistoryOk.fill_le {s : State} (h : HistoryOk s) : s.hb.fill.toNat ≤ s.out.length ∧ s.hb.fill.toNat ≤ 32768 := by
  rw [h.fill_eq]
  exact ⟨Nat.min_le_left _ _, Nat.min_le_right _ _⟩

/-- The next byte of a copy is the one at its distance in the output so far (42_history_buffer.md R174): it is read at that
distance behind the cursor, where the window still holds it. -/
theorem HistoryOk.copy_succ_out {s : State} (h : HistoryOk s) {d : Nat} (h1 : 1 ≤ d) (h2 : d ≤ s.hb.fill.toNat) (n : Nat) :
    ∃ b, some b = (copy d n s).out[s.out.length + n - d]? ∧ (copy d (n + 1) s).out = (copy d n s).out ++ [b] := by
  refine ⟨_, ?_, congrArg State.out (copyReadsOneByteAfterAnother d n s h1 h2).2⟩
  obtain ⟨bs, hlen, heq⟩ := copy_eq_emitAll h1 h2 n
  have hd : d ≤ 32768 := h2.trans h.fill_le.2
  have hfill : d ≤ (emitAll bs s).hb.fill.toNat := by
    rw [h.emitAll_hb_fill_toNat]
    omega
  have hread : (s.hb.cur.toNat + 65536 - d + n) % 32768 = ((emitAll bs s).hb.cur - BitVec.ofNat 15 d).toNat := by
    rw [BitVec.toNat_sub, emitAll_hb_cur_toNat, BitVec.toNat_ofNat, hlen]
    omega
  rw [heq, hread, (h.emitAll_keeps bs).window d h1 hfill, emitAll_out, List.length_append, hlen]

/-- The output of a copy repeats with the distance as its period (42_history_buffer.md R174, R176). -/
theorem HistoryOk.copy_out_periodic {s : State} (h : HistoryOk s) {d : Nat} (h1 : 1 ≤ d) (h2 : d ≤ s.hb.fill.toNat) (n : Nat) :
    ∀ k, k < n → (copy d n s).out[s.out.length + k]? = (copy d n s).out[s.out.length + k - d]? := by
  induction n with
  | zero => exact nofun
  | succ n ih =>
    intro k hk
    have hd : d ≤ s.out.length := h2.trans h.fill_le.1
    obtain ⟨bs, hlen, heq⟩ := copy_eq_emitAll h1 h2 n
    have hout : (copy d n s).out.length = s.out.length + n := by rw [heq, emitAll_out, List.length_append, hlen]
    obtain ⟨b, hb, hsucc⟩ := h.copy_succ_out h1 h2 n
    rw [hsucc, List.getElem?_append_left (i := s.out.length + k - d) (by omega)]
    rcases Nat.lt_succ_iff_lt_or_eq.mp hk with hlt | rfl
    · rw [List.getElem?_append_left (by omega), ih k hlt]
    · rw [← hb, ← hout, List.getElem?_concat_length]

/-- Settles O24: the period is `HistoryOk.copy_out_periodic`; the rest is what emitting that many bytes does. -/
theorem copyRepeatsThePrecedingBytes : Obligations.CopyRepeatsThePrecedingBytes := by
  intro d n s h h1 h2
  have hperiodic := h.copy_out_periodic h1 h2 n
  obtain ⟨bs, rfl, heq⟩ := copy_eq_emitAll h1 h2 n
  rw [heq] at hperiodic ⊢
  exact ⟨_, rfl, h.emitAll_keeps bs, emitAll_src bs s, emitAll_br bs s, emitAll_bd bs s, emitAll_hb_cur_toNat bs s,
    h.emitAll_hb_fill_toNat bs, by rw [emitAll_out, List.length_append],
    fun k hk => by rw [emitAll_out, List.getElem?_append_left hk], hperiodic, fun _ ha => emitAll_read_of_ne ha⟩

end Sys2Proof.Machine
end

section
/-!
Proofs of the family 43_block_header_stored: the three bits of a block header, the dispatch on the block type, and a stored
block's alignment, lengths and data, which are copied byte by byte from a byte boundary.
-/

namespace Sys2Proof.Machine

/-! ### Updates that commute: reading touches the reader, emitting the history buffer and the output -/

theorem consume_setBd (k : Nat) (s : State) (b : BlockDecoder) :
    consume k { s with bd := b } = { consume k s with bd := b } := by unfold consume; split <;> rfl

theorem consume_emit (k : Nat) (b : Byte) (s : State) : consume k (emit b s) = emit b (consume k s) := by
  unfold consume; split <;> rfl

theorem emitAll_setEos (bs : List Byte) (s : State) (e : Bool) :
    emitAll bs { s with br.eos := e } = { emitAll bs s with br.eos := e } := by
  induction bs generalizing s with
  | nil => rfl
  | cons x bs ih => exact ih (emit x s)

theorem emitAll_setBd (bs : List Byte) (s : State) (b : BlockDecoder) :
    emitAll bs { s with bd := b } = { emitAll bs s with bd := b } := by
  induction bs generalizing s with
  | nil => rfl
  | cons x bs ih => exact ih (emit x s)

/-! ### The header -/

/-- Settles O27: the meaning of `HDR` is this update. -/
theorem headerIsRecorded : Obligations.HeaderIsRecorded := fun _ _ _ => rfl

/-- Three bits at hand are BFINAL, then BTYPE with its low bit first (30_encoding.md R92). -/
theorem decode_header_cons (b₀ b₁ b₂ : Bool) (rest : List Bool) :
    decode listBits .header (b₀ :: b₁ :: b₂ :: rest) =
      .ok (.hdr b₀ (BitVec.ofNat 2 (b₁.toNat + 2 * b₂.toNat))) rest := by
  cases b₀ <;> rfl

/-- The header fields read whole before the bits run out: BFINAL, where there is a bit (43_block_header_stored.md R191). -/
def headerPartial (bits : List Bool) : Partial := bits.head?.elim .nothing .bfinal

theorem decode_header_of_lt {bits : List Bool} (h : bits.length < 3) :
    decode listBits .header bits = .stop (.unexpectedEnd (headerPartial bits)) [] := by
  match bits, h with
  | [], _ => rfl
  | [b₀], _ | [b₀, _], _ => cases b₀ <;> rfl

theorem latch_headerPartial_bfinal (bits : List Bool) (s : State) :
    (latch (headerPartial bits) s).bd.bfinal = bits.head?.getD s.bd.bfinal := by cases bits <;> rfl

/-- With all bits consumed the source is exhausted. -/
theorem consume_bitsAhead_pos {s : State} (h : ReaderOk s) (he : s.br.eos = false) :
    (consume (bitsAhead s).length s).src.pos = s.src.bytes.length := by
  have hle : bitpos s ≤ 8 * s.src.bytes.length := (Nat.sub_le _ _).trans (Nat.mul_le_mul_left 8 h.pos_le)
  rw [(consume_spec h he _ (Nat.le_refl _)).1.src_pos_eq, bitpos_consume h, bitsAhead_length h he]
  omega

/-- Settles O28: the bits ahead decode to `HDR`, or run out with BFINAL read or not. -/
theorem headerStepReadsThreeBits : Obligations.HeaderStepReadsThreeBits := by
  intro s h he hrun hexp
  have hctx : ctxOf s = .header := by rw [ctxOf, hexp]
  refine ⟨fun b₀ b₁ b₂ rest hbits => ?_, fun hlt => ?_⟩
  · have hstep := stepRunsTheDecodedInstruction s _ rest h he hrun
      (by rw [hctx, hbits]; exact decode_header_cons b₀ b₁ b₂ rest)
    have hlen : (bitsAhead s).length - rest.length = 3 := by
      rw [hbits]
      exact Nat.add_sub_cancel_left (n := rest.length) (m := 3)
    rw [hstep, hlen, headerIsRecorded, consume_bd]
  · have hrel := decode_bitReader h he (ctxOf s)
    rw [hctx, decode_header_of_lt hlt, ← hctx] at hrel
    refine ⟨_, step_of_reject hrun hrel.eq_unexpectedEnd, rfl, rfl, ?pos, by simp, ?bfinal, by simp [raiseReject],
      by simp, by simp⟩
    case pos => simpa using consume_bitsAhead_pos h he
    case bfinal => simp [raiseReject, latch_headerPartial_bfinal]

/-! ### The dispatch -/

theorem fetch_of_dispatch {s : State} (h : s.bd.expect = .dispatch) :
    fetch s = .ok (btypeInstr s.bd.bfinal s.bd.btype) s := by
  rw [fetch, show ctxOf s = .dispatch s.bd.bfinal s.bd.btype by rw [ctxOf, h]]
  rfl

/-- Settles O33: the dispatch reads no bit, and runs the row of each of the four types. -/
theorem dispatchIsOnTheTypeAlone : Obligations.DispatchIsOnTheTypeAlone := by
  intro s hexp hrun
  rw [step_of_fetch hrun (fetch_of_dispatch hexp)]
  have hcases : ∀ t : BitVec 2, t = 0 ∨ t = 1 ∨ t = 2 ∨ t = 3 := by decide
  obtain ht | ht | ht | ht := hcases s.bd.btype <;> rw [ht] <;> rfl

/-- Settles O30: the meaning of `BTYPE1_FIXED` is this update, after which the flag selects the constant codes. -/
theorem fixedBlockSetUp : Obligations.FixedBlockSetUp := by
  refine fun f s => ⟨rfl, fun t ht => ?_⟩
  cases ht
  exact ⟨rfl, rfl⟩

/-- Settles O31: the meaning of `BTYPE2_DYNAMIC` is this update. -/
theorem dynamicBlockStarts : Obligations.DynamicBlockStarts := fun _ _ => rfl

/-- Settles O32: the meaning of `BTYPE3_RESERVED` is this failure. -/
theorem reservedBlockTypeFails : Obligations.ReservedBlockTypeFails := fun _ _ => rfl

/-! ### The alignment of a stored block -/

/-- The bits up to the byte boundary are those left of the buffered byte. -/
theorem bits_to_boundary_eq_rem (s : State) : (8 - bitPosition s) % 8 = s.br.rem.toNat := by
  have hlt := s.br.rem.isLt
  rw [bitPosition]
  omega

/-- Settles O29: aligning consumes the bits left of the buffered byte, which are always there. -/
theorem storedBlockAligns : Obligations.StoredBlockAligns := by
  intro f s h he
  rw [bits_to_boundary_eq_rem]
  refine ⟨?_, bitPosition_eq_zero.mpr (consume_rem_rem h)⟩
  have hstored : ReaderOk { s with bd.phase := .storedBlock } := h.of_eq rfl rfl
  simp only [exec, execBtype0Stored, alignToByte_eq hstored he, consume_setBd]

/-! ### The lengths of a stored block -/

theorem exec_storedLenNlen_of_ne {len nlen : BitVec 16} (h : len ^^^ 0xFFFF ≠ nlen) (s : State) :
    exec (.storedLenNlen len nlen) s = .next (raise .storedLenMismatch 0 { s with bd.len := len, bd.nlen := nlen }) :=
  if_pos h

theorem exec_storedLenNlen_of_eq {len nlen : BitVec 16} (h : len ^^^ 0xFFFF = nlen) (s : State) :
    exec (.storedLenNlen len nlen) s =
      .next (storedData len.toNat { s with bd := { s.bd with len := len, nlen := nlen, cnt := len } }) :=
  if_neg (not_not_intro h)

/-- Settles O35: the check fails before the data loop is entered. -/
theorem storedLengthMismatchFails : Obligations.StoredLengthMismatchFails :=
  fun _ _ s h => exec_storedLenNlen_of_ne h s

/-! ### The data of a stored block -/

/-- A reader in order at a byte boundary, its end not seen, with `bytes` not yet pulled. -/
structure AtBytes (s : State) (bytes : List Byte) : Prop where
  reader : ReaderOk s
  eos : s.br.eos = false
  rem : s.br.rem = 0
  unread : s.src.bytes.drop s.src.pos = bytes

theorem AtBytes.of_eq {s t : State} {bytes : List Byte} (h : AtBytes s bytes) (hsrc : t.src = s.src) (hbr : t.br = s.br) :
    AtBytes t bytes :=
  ⟨h.reader.of_eq hsrc hbr, hbr ▸ h.eos, hbr ▸ h.rem, hsrc ▸ h.unread⟩

theorem AtBytes.setBd {s : State} {bytes : List Byte} (h : AtBytes s bytes) (b : BlockDecoder) :
    AtBytes { s with bd := b } bytes := h.of_eq rfl rfl

theorem AtBytes.bitsAhead_eq {s : State} {bytes : List Byte} (h : AtBytes s bytes) : bitsAhead s = bytesToBits bytes := by
  simp [bitsAhead, h.eos, h.rem, h.unread]

theorem AtBytes.consume_byte {s : State} {b : Byte} {bytes : List Byte} (h : AtBytes s (b :: bytes)) :
    AtBytes (consume 8 s) bytes := by
  have hbits : 8 ≤ (bitsAhead s).length := by simp [h.bitsAhead_eq, Nat.mul_add]
  have hreader := (consume_spec h.reader h.eos 8 hbits).1
  have hpos : bitpos (consume 8 s) = 8 * (s.src.pos + 1) := by
    rw [bitpos_consume h.reader]
    simp [bitpos, h.rem, Nat.mul_add]
  refine ⟨hreader, by simp [h.eos], BitVec.eq_of_toNat_eq ?_, ?_⟩
  · rw [hreader.rem_eq, hpos, Nat.mul_mod_right]
    rfl
  · have hnext : (consume 8 s).src.pos = s.src.pos + 1 := by
      rw [hreader.src_pos_eq, hpos]
      omega
    rw [consume_src_bytes, hnext, ← List.drop_drop, h.unread, List.drop_one, List.tail_cons]

/-- At a byte boundary eight bits are the next byte (40_bit_reader.md R132, 20_memory.md R67). -/
theorem AtBytes.readUint_byte {s : State} {b : Byte} {bytes : List Byte} (h : AtBytes s (b :: bytes)) :
    readUint 8 s = .ok b.toNat (consume 8 s) := by
  have hrel := readUint_bitReader h.reader h.eos 8
  rw [h.bitsAhead_eq, bytesToBits, Laws.Forms.readUintFrom_fieldBits 8 _ _ (by decide) b.isLt] at hrel
  obtain ⟨s', hread, htracks⟩ := hrel.eq_ok
  rw [hread, htracks.eq_consume, h.bitsAhead_eq, bytesToBits, List.length_append, fieldBits_length, Nat.add_sub_cancel]

/-- One data byte consumed, sent and appended, and counted (43_block_header_stored.md R197). -/
def deliver (b : Byte) (s : State) : State :=
  { emit b (consume 8 s) with bd := { s.bd with cnt := s.bd.cnt - 1 } }

/-- Data bytes delivered one by one. -/
def deliverAll (bs : List Byte) (s : State) : State := bs.foldl (fun u b => deliver b u) s

theorem AtBytes.deliver_byte {s : State} {b : Byte} {bytes : List Byte} (h : AtBytes s (b :: bytes)) :
    AtBytes (deliver b s) bytes := h.consume_byte.of_eq rfl rfl

/-- An iteration of the data loop with a byte at hand delivers it. -/
theorem AtBytes.storedData_byte {s : State} {b : Byte} {bytes : List Byte} (h : AtBytes s (b :: bytes)) (k : Nat) :
    storedData (k + 1) s = storedData k (deliver b s) := by
  rw [storedData, h.readUint_byte]
  simp only [deliver, BitVec.ofNat_toNat, BitVec.setWidth_eq, emit_bd, consume_bd]

/-- An iteration of the data loop at the end of the source fails (60_exceptions.md R282). -/
theorem AtBytes.storedData_end {s : State} (h : AtBytes s []) (k : Nat) :
    storedData (k + 1) s = raise .unexpectedEnd 0 { s with br.eos := true } := by
  have hnil : bitsAhead s = [] := h.bitsAhead_eq
  have hread := readUint_of_lt (n := 8) h.reader (by decide) (by simp [hnil])
  rw [hnil, List.length_nil, consume_zero] at hread
  rw [storedData, hread]
  rfl

/-- The data loop delivers the bytes at hand, and goes on after them. -/
theorem AtBytes.storedData_append {s : State} {bs rest : List Byte} (h : AtBytes s (bs ++ rest)) (k : Nat) :
    storedData (bs.length + k) s = storedData k (deliverAll bs s) ∧ AtBytes (deliverAll bs s) rest := by
  induction bs generalizing s with
  | nil => exact ⟨by rw [List.length_nil, Nat.zero_add]; rfl, h⟩
  | cons b bs ih =>
    obtain ⟨hloop, hrest⟩ := ih h.deliver_byte
    refine ⟨?_, hrest⟩
    rw [List.length_cons, Nat.add_right_comm, h.storedData_byte]
    exact hloop

/-- The bytes delivered one by one are consumed, emitted and counted all together. -/
theorem AtBytes.deliverAll_eq {s : State} {bs rest : List Byte} (h : AtBytes s (bs ++ rest)) :
    deliverAll bs s = { emitAll bs (consume (8 * bs.length) s) with
      bd := { s.bd with cnt := s.bd.cnt - BitVec.ofNat 16 bs.length } } := by
  induction bs generalizing s with
  | nil => simp [deliverAll, consume_zero]
  | cons b bs ih =>
    have hcount : s.bd.cnt - 1 - BitVec.ofNat 16 bs.length = s.bd.cnt - BitVec.ofNat 16 (bs.length + 1) := by
      rw [Nat.add_comm, BitVec.ofNat_add, sub_sub]; rfl
    have hconsume : consume (8 * bs.length) (deliver b s) =
        { emit b (consume (8 * (bs.length + 1)) s) with bd := { s.bd with cnt := s.bd.cnt - 1 } } := by
      rw [deliver, consume_setBd, consume_emit, consume_consume h.reader, Nat.mul_add_one, Nat.add_comm]
    calc deliverAll (b :: bs) s
        = deliverAll bs (deliver b s) := rfl
      _ = _ := ih h.deliver_byte
      _ = _ := by
        rw [hconsume, emitAll_setBd, List.length_cons, ← hcount]
        rfl

/-- Whatever the block decoder's registers hold, delivering counts in them and touches none of the others. -/
theorem AtBytes.deliverAll_setBd {s : State} {bs rest : List Byte} (h : AtBytes s (bs ++ rest)) (b : BlockDecoder) :
    deliverAll bs { s with bd := b } = { emitAll bs (consume (8 * bs.length) s) with
      bd := { b with cnt := b.cnt - BitVec.ofNat 16 bs.length } } := by
  rw [(h.setBd b).deliverAll_eq, consume_setBd, emitAll_setBd]

/-- With all the data at hand the loop delivers it and ends the block (43_block_header_stored.md R197, R200). -/
theorem AtBytes.storedData_of_le {s : State} {bytes : List Byte} (h : AtBytes s bytes) (b : BlockDecoder) {n : Nat}
    (hn : n ≤ bytes.length) :
    storedData n { s with bd := b } = endOfBlock { emitAll (bytes.take n) (consume (8 * n) s) with
      bd := { b with cnt := b.cnt - BitVec.ofNat 16 n } } := by
  have htake : (bytes.take n).length = n := List.length_take_of_le hn
  rw [← List.take_append_drop n bytes] at h
  obtain ⟨hloop, -⟩ := (h.setBd b).storedData_append 0
  rw [h.deliverAll_setBd, htake] at hloop
  exact hloop

/-- With data missing the loop delivers what is at hand and fails at the source's end (60_exceptions.md R292). -/
theorem AtBytes.storedData_of_lt {s : State} {bytes : List Byte} (h : AtBytes s bytes) (b : BlockDecoder) {n : Nat}
    (hn : bytes.length < n) :
    storedData n { s with bd := b } = raise .unexpectedEnd 0
      { emitAll bytes { consume (8 * bytes.length) s with br.eos := true } with
        bd := { b with cnt := b.cnt - BitVec.ofNat 16 bytes.length } } := by
  obtain ⟨k, rfl⟩ := Nat.exists_eq_add_of_lt hn
  rw [← List.append_nil bytes] at h
  obtain ⟨hloop, hend⟩ := (h.setBd b).storedData_append (k + 1)
  rw [Nat.add_assoc, hloop, hend.storedData_end, h.deliverAll_setBd, emitAll_setEos _ _ true]

/-- Settles O34: the data loop with all the data at hand, and with data missing. -/
theorem storedDataIsCopied : Obligations.StoredDataIsCopied := by
  intro len nlen s h he hr hlen
  have hs : AtBytes s (s.src.bytes.drop s.src.pos) := ⟨h, he, hr, rfl⟩
  rw [exec_storedLenNlen_of_eq hlen]
  refine ⟨fun hle => ?_, fun hlt => ?_⟩
  · rw [hs.storedData_of_le _ hle, BitVec.ofNat_toNat, BitVec.setWidth_eq, BitVec.sub_self]
    rfl
  · rw [hs.storedData_of_lt _ hlt]
    rfl

end Sys2Proof.Machine
end

section
/-!
Proofs of the family 44_dynamic_header: the counts and the code-length-code lengths, the run a code-length symbol writes, and
the construction of the block's two codes, a single distance code padded.
-/

namespace Sys2Proof.Machine

/-! ### The counts and the code-length-code lengths -/

/-- Settles O36: the meanings of `HLIT`, `HDIST` and `HCLEN` are these updates. -/
theorem countsAreRecorded : Obligations.CountsAreRecorded := fun _ _ _ _ => ⟨rfl, rfl, rfl⟩

/-- The state in which a code-length-code length stands at its place in scan order (44_dynamic_header.md R212). -/
def withClLen (v : BitVec 3) (s : State) : State :=
  { s with bd := { s.bd with
    clLen := s.bd.clLen.setIfInBounds (Config.clOrder.getD s.bd.clPos.toNat 0) v
    clPos := s.bd.clPos + 1 } }

theorem exec_cllen_of_lt {s : State} (h : s.bd.clPos.toNat + 1 < countCl s.bd.hclen) (v : BitVec 3) :
    exec (.cllen v) s = .next (withClLen v s) :=
  (if_neg (by omega)).trans (if_neg h.ne)

theorem exec_cllen_of_eq {s : State} (h : s.bd.clPos.toNat + 1 = countCl s.bd.hclen) (v : BitVec 3) :
    exec (.cllen v) s = .next (buildClCode (withClLen v s)) :=
  (if_neg (by omega)).trans (if_pos h)

theorem buildClCode_of_ok {s : State} {code : Code} (h : build (s.bd.clLen.toList.map (BitVec.setWidth 4)) = .ok code) :
    buildClCode s = { s with bd.clCode := code, bd.idx := 0, bd.expect := .clsym } := by
  rw [buildClCode, h]

theorem buildClCode_of_error {s : State} {e : BuildError}
    (h : build (s.bd.clLen.toList.map (BitVec.setWidth 4)) = .error e) : buildClCode s = raiseBuild e 0 s := by
  rw [buildClCode, h]

/-- Settles O37: a length that is not the last is stored, and the next is due. -/
theorem codeLengthCodeLengthsFollowTheScanOrder : Obligations.CodeLengthCodeLengthsFollowTheScanOrder :=
  fun v _ h => exec_cllen_of_lt h v

/-- Settles O38: the last length is stored, then the three outcomes of `build`. -/
theorem lastCodeLengthCodeLengthBuilds : Obligations.LastCodeLengthCodeLengthBuilds := by
  intro v s h
  refine ⟨withClLen v s, rfl, fun code hb => ?_, fun hb => ?_, fun hb => ?_⟩ <;> rw [exec_cllen_of_eq h]
  · rw [buildClCode_of_ok hb]
  · rw [buildClCode_of_error hb]; rfl
  · rw [buildClCode_of_error hb]; rfl

/-! ### The run of a code-length symbol -/

/-- The counts fit the array of code lengths (10_state.md R38). -/
theorem codeLenCount_le (s : State) : codeLenCount s ≤ 320 := by
  have hlit := s.bd.hlit.isLt
  have hdist := s.bd.hdist.isLt
  simp only [codeLenCount, countLL, countD]
  omega

theorem runOf_pos (s : State) (sym x : Nat) : 0 < (runOf s sym x).1 := by
  unfold runOf
  split_ifs <;> simp only <;> omega

/-- A code-length symbol stands for its run of 30_encoding.md R105; a symbol 16 needs a length before it. -/
theorem exec_clsym_eq_run {i : Instr} {s : State} {sym n x : Nat} (hform : formOf i = .symbol .clsym sym n x)
    (h16 : sym = 16 → s.bd.idx ≠ 0) : exec i s = codeLengthRun (runOf s sym x).1 (runOf s sym x).2 s := by
  rw [exec_clsym hform, clMeaning, runOf, Nat.add_comm x 3, Nat.add_comm x 11]
  split_ifs with hlit hrep hidx
  · rfl
  · exact absurd hidx (h16 hrep)
  · rfl
  · rfl
  · rfl

theorem codeLengthRun_of_lt {s : State} {run : Nat} (h : s.bd.idx.toNat + run < codeLenCount s) (val : BitVec 4) :
    codeLengthRun run val s = .next (withRun s (run, val)) :=
  (if_neg (by omega)).trans ((if_neg (by omega)).trans (if_neg h.ne))

theorem codeLengthRun_of_gt {s : State} {run : Nat} (hidx : s.bd.idx.toNat < codeLenCount s)
    (h : codeLenCount s < s.bd.idx.toNat + run) (val : BitVec 4) :
    codeLengthRun run val s = .next (raise .runExceedsCount 0 s) :=
  (if_neg (by omega)).trans (if_pos h)

theorem codeLengthRun_of_eq {s : State} {run : Nat} (hrun : 0 < run) (h : s.bd.idx.toNat + run = codeLenCount s)
    (val : BitVec 4) : codeLengthRun run val s = .next (splitAndBuild (withRun s (run, val))) :=
  (if_neg (by omega)).trans ((if_neg (by omega)).trans (if_pos h))

/-- A run within the array replaces its stretch, and nothing else. -/
theorem setRun_toList (lens : Vector (BitVec 4) 320) {i run : Nat} (val : BitVec 4) (h : i + run ≤ 320) :
    (setRun lens i val run).toList =
      lens.toList.take i ++ (List.replicate run val ++ lens.toList.drop (i + run)) := by
  induction run generalizing lens i with
  | zero => exact (List.take_append_drop i lens.toList).symm
  | succ run ih =>
    have hi : i < lens.toList.length := by rw [Vector.length_toList]; omega
    have htake : (lens.setIfInBounds i val).toList.take (i + 1) = lens.toList.take i ++ [val] := by
      rw [Vector.toList_setIfInBounds, List.set_eq_take_append_cons_drop, if_pos hi, List.take_append,
        List.length_take_of_le hi.le, Nat.add_sub_cancel_left, List.take_of_length_le (by simp)]
      rfl
    have hdrop : (lens.setIfInBounds i val).toList.drop (i + 1 + run) = lens.toList.drop (i + (run + 1)) := by
      rw [Vector.toList_setIfInBounds, List.drop_set_of_lt (by omega), Nat.add_assoc, Nat.add_comm 1]
    rw [setRun, ih _ (by omega), htake, hdrop, List.append_assoc]
    rfl

/-- Settles O39: a symbol that does not fill the count writes its run. -/
theorem codeLengthSymbolsWriteTheirRun : Obligations.CodeLengthSymbolsWriteTheirRun := by
  intro i s sym n x hform h16 hlt
  refine ⟨?_, setRun_toList _ _ (hlt.le.trans (codeLenCount_le s))⟩
  rw [exec_clsym_eq_run hform h16, codeLengthRun_of_lt hlt]

/-- Settles O40: the overflow test comes before the run is written. -/
theorem runsPastTheCountFail : Obligations.RunsPastTheCountFail := by
  intro i s sym n x hform h16 hidx hgt
  rw [exec_clsym_eq_run hform h16, codeLengthRun_of_gt hidx hgt]
  rfl

/-! ### The block's two codes -/

theorem splitAndBuild_of_error {s : State} {e : BuildError}
    (h : build (s.bd.codeLen.toList.take (countLL s.bd.hlit)) = .error e) : splitAndBuild s = raiseBuild e 1 s := by
  rw [splitAndBuild, h]

theorem splitAndBuild_of_ok {s : State} {code : Code}
    (h : build (s.bd.codeLen.toList.take (countLL s.bd.hlit)) = .ok code) :
    splitAndBuild s = buildDistCode ((s.bd.codeLen.toList.drop (countLL s.bd.hlit)).take (countD s.bd.hdist))
      { s with bd.llCode := code } := by
  rw [splitAndBuild, h]

theorem buildDistCode_of_zero {lens : List (BitVec 4)} (h : lens = [0]) (s : State) :
    buildDistCode lens s = { setDynamicFlags false s with bd.expect := .litlen } := if_pos h

theorem buildDistCode_of_error {lens : List (BitVec 4)} {e : BuildError} (hne : lens ≠ [0])
    (h : build (padDistLens lens) = .error e) (s : State) : buildDistCode lens s = raiseBuild e 2 s := by
  rw [buildDistCode, if_neg hne, h]

theorem buildDistCode_of_ok {lens : List (BitVec 4)} {code : Code} (hne : lens ≠ [0])
    (h : build (padDistLens lens) = .ok code) (s : State) :
    buildDistCode lens s = { setDynamicFlags true s with bd.dCode := code, bd.expect := .litlen } := by
  rw [buildDistCode, if_neg hne, h]

/-- Settles O42: the outcome of the literal/length code, then that of the distance code. -/
theorem lastCodeLengthBuildsTheCodes : Obligations.LastCodeLengthBuildsTheCodes := by
  intro i s sym n x hform h16 heq
  have hexec : exec i s = .next (splitAndBuild (withRun s (runOf s sym x))) := by
    rw [exec_clsym_eq_run hform h16, codeLengthRun_of_eq (runOf_pos s sym x) heq]
  have herror e := splitAndBuild_of_error (s := withRun s (runOf s sym x)) (e := e)
  have hok c := splitAndBuild_of_ok (s := withRun s (runOf s sym x)) (code := c)
  rw [hexec]
  refine ⟨_, _, _, rfl, rfl, rfl, fun hll => ?_, fun hll => ?_, fun c hll hd => ?_, fun c hll hne hd => ?_,
    fun c hll hne hd => ?_, fun c d hll hne hd => ?_⟩
  · rw [herror _ hll]; rfl
  · rw [herror _ hll]; rfl
  · rw [hok c hll]; exact congrArg _ (buildDistCode_of_zero hd _)
  · rw [hok c hll]; exact congrArg _ (buildDistCode_of_error hne hd _)
  · rw [hok c hll]; exact congrArg _ (buildDistCode_of_error hne hd _)
  · rw [hok c hll]; exact congrArg _ (buildDistCode_of_ok hne hd _)

/-! ### A single distance code -/

/-- A length step passes over symbols without a code. -/
theorem assignLength_replicate_zero {L : Nat} (hL : L ≠ 0) (n s next : Nat) (ls : List (BitVec 4)) :
    assignLength L s next (List.replicate n 0 ++ ls) = assignLength L (s + n) next ls := by
  induction n generalizing s with
  | zero => rfl
  | succ n ih =>
    rw [List.replicate_succ, List.cons_append, assignLength, if_neg (by simpa using hL.symm), ih, Nat.add_assoc, Nat.add_comm 1]

/-- A length step whose length no symbol has makes no entry. -/
theorem assignLength_of_absent {L : Nat} {ls : List (BitVec 4)} (h : ∀ l ∈ ls, l.toNat ≠ L) (s next : Nat) :
    assignLength L s next ls = .ok (next, []) := by
  induction ls generalizing s with
  | nil => rfl
  | cons l ls ih =>
    obtain ⟨hl, hls⟩ := List.forall_mem_cons.mp h
    rw [assignLength, if_neg hl, ih hls]

/-- Length steps beyond the longest code only shift the counter. -/
theorem assignLengths_of_shorter {L : Nat} {lens : List (BitVec 4)} (h : ∀ l ∈ lens, l.toNat < L) (k next : Nat) :
    assignLengths lens k L next = .ok (2 ^ k * next, []) := by
  induction k generalizing L next with
  | zero => rw [Nat.pow_zero, Nat.one_mul]; rfl
  | succ k ih =>
    rw [assignLengths, assignLength_of_absent fun l hl => (h l hl).ne]
    simp only
    rw [ih fun l hl => (h l hl).trans L.lt_succ_self, Nat.pow_succ, Nat.mul_assoc]
    rfl

/-- A length step gives a symbol of its length the next code value. -/
theorem assignLength_of_coded {L s next next' : Nat} {l : BitVec 4} {ls : List (BitVec 4)} {table : Code} (hl : l.toNat = L)
    (hnext : next < 2 ^ L) (h : assignLength L (s + 1) (next + 1) ls = .ok (next', table)) :
    assignLength L s next (l :: ls) = .ok (next', ⟨sentinelKey L next, BitVec.ofNat 9 s⟩ :: table) := by
  rw [assignLength, if_pos hl, if_neg hnext.not_ge, h]

/-- Two codes of length 1 and no other are complete: the earlier symbol has code 0, the later one code 1. -/
theorem build_two_ones (a b c : Nat) :
    build (List.replicate a 0 ++ 1 :: (List.replicate b 0 ++ 1 :: List.replicate c 0)) =
      .ok [⟨2, BitVec.ofNat 9 a⟩, ⟨3, BitVec.ofNat 9 (a + 1 + b)⟩] := by
  have hrest : assignLength 1 (a + 1 + b + 1) 2 (List.replicate c 0) = .ok (2, []) :=
    assignLength_of_absent (by simp) _ _
  have hlater : assignLength 1 (a + 1) 1 (List.replicate b 0 ++ 1 :: List.replicate c 0) =
      .ok (2, [⟨3, BitVec.ofNat 9 (a + 1 + b)⟩]) := by
    rw [assignLength_replicate_zero (by decide)]
    exact assignLength_of_coded rfl (by decide) hrest
  have hstep : assignLength 1 0 0 (List.replicate a 0 ++ 1 :: (List.replicate b 0 ++ 1 :: List.replicate c 0)) =
      .ok (2, [⟨2, BitVec.ofNat 9 a⟩, ⟨3, BitVec.ofNat 9 (a + 1 + b)⟩]) := by
    rw [assignLength_replicate_zero (by decide), Nat.zero_add]
    exact assignLength_of_coded rfl (by decide) hlater
  have hshort : ∀ l ∈ List.replicate a 0 ++ 1 :: (List.replicate b 0 ++ 1 :: List.replicate c (0 : BitVec 4)),
      l.toNat < 2 := by
    simp [or_imp, forall_and]
  exact build_ok.mpr (assignLengths_succ.mpr ⟨2, _, [], hstep, assignLengths_of_shorter hshort 14 2, rfl⟩)

/-- An array whose one nonzero length is a 1 in slot `k`, written out around that slot. -/
theorem eq_single_one {d : List (BitVec 4)} {k : Nat} (hk : k < d.length)
    (h : ∀ j, j < d.length → d[j]? = some (if j = k then 1 else 0)) :
    d = List.replicate k 0 ++ 1 :: List.replicate (d.length - (k + 1)) 0 :=
  calc d = (List.replicate d.length 0).set k 1 :=
      List.ext_getElem (by simp) fun j hj _ => by
        simpa [List.getElem?_eq_getElem hj, List.getElem_set, eq_comm] using h j hj
    _ = List.replicate k 0 ++ 1 :: List.replicate (d.length - (k + 1)) 0 := by
      rw [List.set_eq_take_append_cons_drop, if_pos (by simpa), List.take_replicate, List.drop_replicate,
        Nat.min_eq_left hk.le]

/-- A single code of length 1 in a slot before 31 is joined by one in slot 31 (44_dynamic_header.md R224). -/
theorem padDistLens_single {k m : Nat} (hk : k < 31) (hlen : k + 1 + m ≤ 32) :
    padDistLens (List.replicate k 0 ++ 1 :: List.replicate m 0) =
      List.replicate k 0 ++ 1 :: (List.replicate (30 - k) 0 ++ [1]) := by
  have hpad : m + (32 - (k + (m + 1))) = 30 - k + 1 := by omega
  have hslot : (List.replicate k 0 ++ 1 :: List.replicate (30 - k) (0 : BitVec 4)).length = Config.padSlot := by
    simp only [List.length_append, List.length_cons, List.length_replicate, Config.padSlot]
    omega
  rw [padDistLens, if_pos (by simp [List.countP_replicate])]
  simp only [List.length_append, List.length_cons, List.length_replicate, List.append_assoc, List.cons_append,
    List.replicate_append_replicate, hpad, List.replicate_succ']
  rw [← List.cons_append, ← List.append_assoc, List.set_append_right _ _ hslot.le, hslot, Nat.sub_self,
    List.append_assoc, List.cons_append]
  rfl

/-- One length 1 and none longer is one nonzero length, a 1. -/
theorem filter_ne_zero_eq_single {d : List (BitVec 4)} (hone : d.countP (fun l => l == 1) = 1)
    (hlong : d.countP (fun l => decide (1 < l.toNat)) = 0) : d.filter (fun l => l ≠ 0) = [1] := by
  have hle : ∀ l ∈ d, l.toNat ≤ 1 := by simpa using hlong
  have hones : d.filter (fun l => l ≠ 0) = d.filter (fun l => l == 1) := List.filter_congr fun l hl => by
    have hcases : l = 0 ∨ l = 1 := by have := hle l hl; bv_omega
    obtain rfl | rfl := hcases <;> rfl
  rw [hones, List.filter_beq, List.count, hone]
  rfl

/-- Settles O43: a single code is padded in slots 0 to 30, over itself in slot 31, and no other array is padded. -/
theorem singleDistanceCodesArePadded : Obligations.SingleDistanceCodesArePadded := by
  intro d hd
  refine ⟨fun k hk h31 hsingle => ?_, fun hlen hsingle => ?_, fun hne => ?_⟩
  · have hslot : k + 1 + (30 - k) = 31 := by omega
    rw [eq_single_one hk hsingle, padDistLens_single (by omega) (by omega)]
    exact (build_two_ones k (30 - k) 0).trans (by rw [hslot]; rfl)
  · have hd31 := eq_single_one (k := 31) (by omega) (hlen ▸ hsingle)
    rw [hlen] at hd31
    rw [hd31]
    decide +kernel
  · exact if_neg fun ⟨hone, hlong⟩ => hne (filter_ne_zero_eq_single hone hlong)

end Sys2Proof.Machine
end

section
/-!
Proofs of the family 45_huffman_body: a literal is emitted, a length symbol gives its run length, and a distance symbol copies
the waiting run length. Each statement is one case of `litlenMeaning` or `distMeaning`.
-/

namespace Sys2Proof.Machine

/-! ### Literals and the end of a block -/

/-- What emitting a byte does to the state (42_history_buffer.md R171), the cursor's addition in numbers (R177). -/
theorem emit_eq (b : Byte) (s : State) : emit b s = { s with
    out := s.out ++ [b]
    hb := {
      mem := s.hb.mem.write s.hb.cur.toNat b
      cur := BitVec.ofNat 15 ((s.hb.cur.toNat + 1) % 32768)
      fill := BitVec.ofNat 16 (min (s.hb.fill.toNat + 1) 32768) } } := by
  rw [← emit_hb_cur_toNat b s, BitVec.ofNat_toNat, BitVec.setWidth_eq]
  rfl

theorem exec_literal {i : Instr} {sym n x : Nat} (hform : formOf i = .symbol .litlen sym n x) (hsym : sym < 256) (s : State) :
    exec i s = .next (emit (BitVec.ofNat 8 sym) s) :=
  (exec_litlen hform s).trans (if_pos hsym)

/-- Settles O44: a literal's meaning is `emit` of its symbol number. -/
theorem literalsAreEmitted : Obligations.LiteralsAreEmitted := by
  intro i s sym n x hform hsym
  rw [exec_literal hform hsym, emit_eq]

theorem endOfBlock_of_bfinal {s : State} (h : s.bd.bfinal = true) : endOfBlock s = { s with bd.phase := .done } := if_pos h

theorem endOfBlock_of_not_bfinal {s : State} (h : s.bd.bfinal = false) :
    endOfBlock s = { s with bd.phase := .readingHeader, bd.expect := .header } := if_neg (by simp [h])

/-- Settles O45: the meaning of `EOB` is `endOfBlock`, whose branch the final-block flag takes. -/
theorem endOfBlockDecides : Obligations.EndOfBlockDecides :=
  fun _ => ⟨fun h => congrArg _ (endOfBlock_of_bfinal h), fun h => congrArg _ (endOfBlock_of_not_bfinal h)⟩

/-! ### Length symbols -/

/-- Outside 265 to 284 a literal/length symbol has no extra bits (30_encoding.md R103). -/
theorem form_litlen_no_extra {i : Instr} {sym n x : Nat} (hform : formOf i = .symbol .litlen sym n x)
    (hsym : sym ≤ 264 ∨ 285 ≤ sym) : n = 0 ∧ x = 0 := by
  obtain ⟨-, hn, hx⟩ := form_litlen hform
  rw [lengthExtraBits, if_neg (by omega)] at hn
  subst hn
  exact ⟨rfl, Nat.lt_one_iff.mp hx⟩

theorem exec_lengthSymbol {i : Instr} {sym n x : Nat} (hform : formOf i = .symbol .litlen sym n x) (hlo : 257 ≤ sym)
    (hhi : sym ≤ 285) (s : State) : exec i s = lengthSymbol (lengthBase sym + x) s := by
  rw [exec_litlen hform, litlenMeaning, if_neg (by omega), if_neg (by omega), if_pos hhi]

theorem exec_reservedLength {i : Instr} {sym n x : Nat} (hform : formOf i = .symbol .litlen sym n x) (hsym : 286 ≤ sym)
    (s : State) : exec i s = .next (raise .reservedLengthSymbol 0 s) := by
  rw [exec_litlen hform, litlenMeaning, if_neg (by omega), if_neg (by omega), if_neg (by omega), reservedLength]

theorem lengthSymbol_of_dPresent {s : State} (h : s.bd.dPresent = true) (len : Nat) :
    lengthSymbol len s = .next { s with bd.runLen := BitVec.ofNat 9 len, bd.expect := .dist } := if_pos h

theorem lengthSymbol_of_not_dPresent {s : State} (h : s.bd.dPresent = false) (len : Nat) :
    lengthSymbol len s = .next (raise .noDistanceCode 0 s) := if_neg (by simp [h])

theorem lengthBase_of_le {sym : Nat} (h : sym ≤ 264) : lengthBase sym = sym - 254 := if_pos h

theorem lengthBase_of_extra {sym : Nat} (hlo : 265 ≤ sym) (hhi : sym ≤ 284) :
    lengthBase sym = ((sym - 265) % 4 + 4) <<< ((sym - 261) / 4) + 3 := by
  rw [lengthBase, if_neg (by omega), if_pos hhi, lengthExtraBits, if_pos ⟨hlo, hhi⟩]

theorem lengthBase_of_ge {sym : Nat} (h : 285 ≤ sym) : lengthBase sym = 258 := by
  rw [lengthBase, if_neg (by omega), if_neg (by omega)]

/-- Settles O46: the base of each of the three ranges, and its width of extra bits. -/
theorem lengthSymbolsGiveTheirRunLength : Obligations.LengthSymbolsGiveTheirRunLength := by
  intro i s sym n x hform hd
  refine ⟨fun hlo hhi => ?_, fun hlo hhi => ?_, fun hsym => ?_⟩
  · obtain ⟨hn, rfl⟩ := form_litlen_no_extra hform (.inl hhi)
    rw [exec_lengthSymbol hform hlo (by omega), lengthSymbol_of_dPresent hd, lengthBase_of_le hhi, Nat.add_zero]
    exact ⟨hn, rfl⟩
  · obtain ⟨-, hn, -⟩ := form_litlen hform
    rw [exec_lengthSymbol hform (by omega) (by omega), lengthSymbol_of_dPresent hd, lengthBase_of_extra hlo hhi]
    exact ⟨hn.trans (if_pos ⟨hlo, hhi⟩), rfl⟩
  · obtain ⟨hn, rfl⟩ := form_litlen_no_extra hform (.inr hsym.ge)
    rw [exec_lengthSymbol hform (by omega) hsym.le, lengthSymbol_of_dPresent hd, lengthBase_of_ge hsym.ge, Nat.add_zero]
    exact ⟨hn, rfl⟩

/-- Settles O47: the failure comes before the test for a distance code. -/
theorem reservedLengthSymbolsFail : Obligations.ReservedLengthSymbolsFail := by
  intro i s sym n x hform hsym
  obtain ⟨hn, -⟩ := form_litlen_no_extra hform (.inr (by omega))
  exact ⟨hn, exec_reservedLength hform hsym s⟩

/-- Settles O48: the other branch of `lengthSymbol`. -/
theorem lengthsWithoutADistanceCodeFail : Obligations.LengthsWithoutADistanceCodeFail := by
  intro i s sym n x hform hlo hhi hd
  rw [exec_lengthSymbol hform hlo hhi, lengthSymbol_of_not_dPresent hd]
  rfl

/-! ### Distance symbols -/

theorem distExtraBits_of_le {sym : Nat} (h : sym ≤ 3) : distExtraBits sym = 0 := if_neg (by omega)

theorem distExtraBits_of_ge {sym : Nat} (h : 30 ≤ sym) : distExtraBits sym = 0 := if_neg (by omega)

theorem distExtraBits_of_mid {sym : Nat} (hlo : 4 ≤ sym) (hhi : sym ≤ 29) : distExtraBits sym = sym / 2 - 1 :=
  if_pos ⟨hlo, hhi⟩

/-- The table's base and the extra bits make up the distance of the formulas of R249 and R250: the symbols 0 to 3, where the
formula leaves the extra bits out, have none. -/
theorem distBase_add_eq_distanceOf {i : Instr} {sym n x : Nat} (hform : formOf i = .symbol .dist sym n x) (hsym : sym ≤ 29) :
    distBase sym + x = distanceOf sym x := by
  obtain ⟨-, rfl, hx⟩ := form_dist hform
  unfold distBase distanceOf
  split_ifs with hsmall
  · rw [distExtraBits_of_le hsmall] at hx
    omega
  · rw [distExtraBits_of_mid (by omega) hsym]

theorem distanceOf_pos (sym x : Nat) : 1 ≤ distanceOf sym x := by
  unfold distanceOf
  split_ifs
  · exact Nat.le_add_left 1 sym
  · exact (Nat.le_add_left 1 _).trans (Nat.le_add_right _ x)

/-- A distance symbol with a run length waiting is a copy, the next literal/length symbol already due (log 1). -/
theorem exec_distance {i : Instr} {s : State} {sym n x : Nat} (hform : formOf i = .symbol .dist sym n x) (hsym : sym ≤ 29)
    (hrun : RunLenOk s) :
    exec i s = .next (copy (distanceOf sym x) s.bd.runLen.toNat { s with bd.expect := .litlen }) := by
  obtain ⟨hmin, hmax⟩ := hrun
  have hguard : ¬ (s.bd.runLen.toNat < Config.minMatch ∨ Config.maxMatch < s.bd.runLen.toNat) :=
    not_or.mpr ⟨Nat.not_lt.mpr hmin, Nat.not_lt.mpr hmax⟩
  rw [exec_dist hform, distMeaning, if_pos hsym, distBase_add_eq_distanceOf hform hsym, distanceSymbol, if_neg hguard]

theorem exec_reservedDistance {i : Instr} {sym n x : Nat} (hform : formOf i = .symbol .dist sym n x) (hsym : 30 ≤ sym)
    (s : State) : exec i s = .next (raise .reservedDistanceSymbol 0 s) := by
  rw [exec_dist hform, distMeaning, if_neg (by omega), reservedDistance]

/-- Settles O49: the copy is in range, so it does what `copyRepeatsThePrecedingBytes` says. -/
theorem distanceSymbolsCopy : Obligations.DistanceSymbolsCopy := by
  intro i s sym n x hform hsym hhist hrun hheld
  refine ⟨?_, ?_⟩
  · obtain ⟨-, hn, -⟩ := form_dist hform
    split_ifs with hsmall
    · exact hn.trans (distExtraBits_of_le hsmall)
    · exact hn.trans (distExtraBits_of_mid (by omega) hsym)
  · have hstart : HistoryOk { s with bd.expect := .litlen } := hhist.of_eq rfl rfl
    obtain ⟨t, ht, hhist', hsrc, hbr, hbd, -, -, hlen, hkept, hcopied, hmem⟩ :=
      copyRepeatsThePrecedingBytes _ s.bd.runLen.toNat _ hstart (distanceOf_pos sym x) hheld
    exact ⟨t, (exec_distance hform hsym hrun).trans (congrArg _ ht), hhist', hsrc, hbr, hbd, hlen, hkept, hcopied, hmem⟩

/-- Settles O50: the copy's check fails, as `copyChecksTheDistanceFirst` says. -/
theorem tooFarDistancesFail : Obligations.TooFarDistancesFail := by
  intro i s sym n x hform hsym hrun hfar
  have hfail := copyChecksTheDistanceFirst _ s.bd.runLen.toNat { s with bd.expect := .litlen } (.inr hfar)
  exact ⟨_, (exec_distance hform hsym hrun).trans (congrArg _ hfail), rfl, rfl, rfl, rfl, rfl, rfl⟩

/-- Settles O51: the failure takes the place of a copy. -/
theorem reservedDistanceSymbolsFail : Obligations.ReservedDistanceSymbolsFail := by
  intro i s sym n x hform hsym
  obtain ⟨-, hn, -⟩ := form_dist hform
  exact ⟨hn.trans (distExtraBits_of_ge hsym), exec_reservedDistance hform hsym s⟩

end Sys2Proof.Machine
end

section
/-!
Proofs of the family 60_exceptions: a raise and its numbers, the end of a run, the failures that come before a read, the
guards, and that every element and every step answers a next state which takes back no output.
-/

namespace Sys2Proof.Machine

/-! ### The failure record and the end of a run -/

/-- Settles O5: the meaning of `raise` is this update, whose phase and record the host reads. -/
theorem raiseRecordsAndStops : Obligations.RaiseRecordsAndStops := fun _ _ _ => ⟨rfl, rfl, rfl⟩

/-- Settles O6: the status after a raise shows the numbers of its cause, which the model's tables give. -/
theorem causesHaveTheirNumbers : Obligations.CausesHaveTheirNumbers := fun _ _ => rfl

/-- Settles O7: both phases end the run, and a step of an ended run answers the same state. -/
theorem endedRunsDoNothing : Obligations.EndedRunsDoNothing := by
  intro s h
  refine step_of_ended ?_
  obtain h | h := h <;> simp [ended, h]

/-! ### Every element answers a next state -/

theorem codeLengthRun_next (run : Nat) (val : BitVec 4) (s : State) : ∃ t, codeLengthRun run val s = .next t := by
  unfold codeLengthRun
  split_ifs <;> exact ⟨_, rfl⟩

theorem clMeaning_next (sym x : Nat) (s : State) : ∃ t, clMeaning sym x s = .next t := by
  unfold clMeaning
  split_ifs
  · exact codeLengthRun_next _ _ s
  · exact ⟨_, rfl⟩
  · exact codeLengthRun_next _ _ s
  · exact codeLengthRun_next _ _ s
  · exact codeLengthRun_next _ _ s

theorem execCllen_next (v : BitVec 3) (s : State) : ∃ t, execCllen v s = .next t := by
  unfold execCllen
  split_ifs <;> exact ⟨_, rfl⟩

theorem litlenMeaning_next (sym x : Nat) (s : State) : ∃ t, litlenMeaning sym x s = .next t := by
  unfold litlenMeaning lengthSymbol
  split_ifs <;> exact ⟨_, rfl⟩

theorem distMeaning_next (sym x : Nat) (s : State) : ∃ t, distMeaning sym x s = .next t := by
  unfold distMeaning distanceSymbol
  split_ifs <;> exact ⟨_, rfl⟩

theorem execBtype0Stored_next (f : Bool) (s : State) : ∃ t, execBtype0Stored f s = .next t := by
  unfold execBtype0Stored
  split <;> exact ⟨_, rfl⟩

theorem execStoredLenNlen_next (len nlen : BitVec 16) (s : State) : ∃ t, execStoredLenNlen len nlen s = .next t := by
  unfold execStoredLenNlen
  split_ifs <;> exact ⟨_, rfl⟩

theorem exec_next (i : Instr) (s : State) : ∃ t, exec i s = .next t := by
  cases i using kindElim with
  | btype0 f => exact execBtype0Stored_next f s
  | stored len nlen => exact execStoredLenNlen_next len nlen s
  | cllen v => exact execCllen_next v s
  | litlen i sym n x hform => exact exec_litlen hform s ▸ litlenMeaning_next sym x s
  | dist i sym n x hform => exact exec_dist hform s ▸ distMeaning_next sym x s
  | clsym i sym n x hform => exact exec_clsym hform s ▸ clMeaning_next sym x s
  | _ => exact ⟨_, rfl⟩

/-- All that a step can do: nothing after the end of the run, else the meaning of the element fetched, or the failure of a
rejected fetch. -/
theorem step_cases (s : State) :
    (ended s = true ∧ step s = .next s) ∨
    (∃ i s', fetch s = .ok i s' ∧ step s = exec i s') ∨
    (∃ r s', fetch s = .stop r s' ∧ step s = .next (raiseReject r s')) := by
  cases hrun : ended s with
  | true => exact .inl ⟨rfl, step_of_ended hrun⟩
  | false =>
    cases hf : fetch s with
    | ok i s' => exact .inr (.inl ⟨i, s', rfl, step_of_fetch hrun hf⟩)
    | stop r s' => exact .inr (.inr ⟨r, s', rfl, step_of_reject hrun hf⟩)

/-- Settles O3: element kind by element kind, then the three cases of a step. -/
theorem nothingStops : Obligations.NothingStops := by
  refine ⟨exec_next, fun s => ?_⟩
  obtain ⟨-, h⟩ | ⟨i, s', -, h⟩ | ⟨r, s', -, h⟩ := step_cases s
  · exact ⟨s, h⟩
  · exact h ▸ exec_next i s'
  · exact ⟨_, h⟩

/-! ### A symbol 16 without a length before it -/

/-- Settles O41: the failure is the branch of index 0, and there the decoder's operand has no bits. -/
theorem repeatWithoutPreviousFails : Obligations.RepeatWithoutPreviousFails :=
  ⟨fun _ _ h => if_pos h, fun _ _ _ h => decode_clsym (i := .cl16Repeat 0) rfl (fun _ _ => rfl) h⟩

/-! ### The guards -/

theorem execCllen_of_ge {s : State} (h : countCl s.bd.hclen ≤ s.bd.clPos.toNat) (v : BitVec 3) :
    execCllen v s = .next (raise .valueRange 0 s) := if_pos h

theorem codeLengthRun_of_ge {s : State} (h : codeLenCount s ≤ s.bd.idx.toNat) (run : Nat) (val : BitVec 4) :
    codeLengthRun run val s = .next (raise .valueRange 0 s) := if_pos h

/-- A header declares at least 258 code lengths (44_dynamic_header.md R214, 30_encoding.md R95). -/
theorem codeLenCount_pos (s : State) : 0 < codeLenCount s := by
  simp only [codeLenCount, countLL]
  omega

theorem distanceSymbol_of_not_runLenOk {s : State} (h : ¬ RunLenOk s) (dist : Nat) :
    distanceSymbol dist s = .next (raise .valueRange 0 s) := by
  refine if_pos ?_
  simp only [RunLenOk, Config.minMatch, Config.maxMatch] at h ⊢
  omega

theorem clInstr_eq_none {sym : Nat} (h : 18 < sym) (x : Nat) : clInstr sym x = none :=
  Option.eq_none_iff_forall_ne_some.mpr fun _ hi => absurd (sym_lt_of_clInstr hi) (by omega)

theorem litlenInstr_eq_none {sym : Nat} (h : 287 < sym) (x : Nat) : litlenInstr sym x = none :=
  Option.eq_none_iff_forall_ne_some.mpr fun _ hi => absurd (sym_lt_of_litlenInstr hi) (by omega)

theorem distInstr_eq_none {sym : Nat} (h : 31 < sym) (x : Nat) : distInstr sym x = none :=
  Option.eq_none_iff_forall_ne_some.mpr fun _ hi => absurd (sym_lt_of_distInstr hi) (by omega)

theorem clOperandBits_of_gt {sym : Nat} (h : 18 < sym) (first : Bool) : clOperandBits first sym = 0 :=
  Nat.le_zero.mp ((clOperandBits_le first sym).trans_eq
    ((if_neg (by omega)).trans ((if_neg (by omega)).trans (if_neg (by omega)))))

theorem lengthExtraBits_of_gt {sym : Nat} (h : 284 < sym) : lengthExtraBits sym = 0 := if_neg (by omega)

/-- A symbol without an element is rejected, no extra bits read, where its width is 0. -/
theorem decodeElement_of_noInstr {code : Code} {width : Nat → Nat} {instr : Nat → Nat → Option Instr} {bits rest : List Bool}
    {sym : Nat} (hsym : decodeSymbolFrom listBits code bits = .ok sym rest) (hw : width sym = 0)
    (hi : ∀ x, instr sym x = none) : decodeElement listBits code width instr bits = .stop .valueRange rest := by
  rw [decodeElement, hsym]
  simp only [Got.bind]
  rw [hw, readUintFrom_of_le _ (Nat.zero_le _)]
  simp only [readBits, hi, orValueRange]

/-- A step whose symbol is above its alphabet raises, the symbol's bits consumed. -/
theorem step_of_valueRange {s : State} {rest : List Bool} (h : ReaderOk s) (he : s.br.eos = false) (hrun : ended s = false)
    (hd : decode listBits (ctxOf s) (bitsAhead s) = .stop .valueRange rest) :
    step s = .next { consume ((bitsAhead s).length - rest.length) s with
      bd := { s.bd with err := some ⟨.internal, .valueRange, 0⟩, phase := .failed } } := by
  obtain ⟨-, -, hrange, -⟩ := stepRaisesWhatTheDecoderRejects s _ rest h he hrun hd
  exact hrange rfl

/-- Settles O52: the guards of the meanings, then the decoder's rejection in each of the three alphabets. -/
theorem impossibleValuesAreInternal : Obligations.ImpossibleValuesAreInternal := by
  rintro s _ rfl
  refine ⟨fun v h => execCllen_of_ge h v, fun i sym n x hform hidx => ?_, fun i sym n x hform hsym hrun => ?_,
    fun h he hrun sym rest => ⟨fun hexp hsym hgt => ?_, fun hexp hsym hgt => ?_, fun hexp hsym hgt => ?_⟩⟩
  · have hne : s.bd.idx ≠ 0 := by
      intro h0
      rw [h0] at hidx
      exact Nat.not_le.mpr (codeLenCount_pos s) hidx
    rw [exec_clsym_eq_run hform fun _ => hne, codeLengthRun_of_ge hidx]
    rfl
  · rw [exec_dist hform, distMeaning, if_pos hsym, distanceSymbol_of_not_runLenOk hrun]
    rfl
  · have hd := decodeElement_of_noInstr hsym (clOperandBits_of_gt hgt (decide (s.bd.idx = 0))) (clInstr_eq_none hgt)
    exact step_of_valueRange h he hrun (by rw [ctxOf, hexp]; exact hd)
  · have hd := decodeElement_of_noInstr hsym (lengthExtraBits_of_gt (by omega)) (litlenInstr_eq_none hgt)
    exact step_of_valueRange h he hrun (by rw [ctxOf, hexp]; exact hd)
  · have hd := decodeElement_of_noInstr hsym (distExtraBits_of_ge (by omega)) (distInstr_eq_none hgt)
    exact step_of_valueRange h he hrun (by rw [ctxOf, hexp]; exact hd)

/-! ### Output is only added to -/

/-- What no element takes back: the output and the bytes pulled; and what none changes: the bytes of the source. -/
def Advances (s t : State) : Prop := s.out <+: t.out ∧ t.src.bytes = s.src.bytes ∧ s.src.pos ≤ t.src.pos

theorem Advances.of_eq {s t : State} (hsrc : t.src = s.src) (hout : t.out = s.out) : Advances s t := by
  rw [Advances, hsrc, hout]
  exact ⟨List.prefix_rfl, rfl, Nat.le_refl _⟩

theorem Advances.trans {s t u : State} (h : Advances s t) (h' : Advances t u) : Advances s u := by
  obtain ⟨hout, hbytes, hpos⟩ := h
  obtain ⟨hout', hbytes', hpos'⟩ := h'
  exact ⟨hout.trans hout', hbytes'.trans hbytes, hpos.trans hpos'⟩

theorem ReadsFrom.advances {s t : State} (h : ReadsFrom s t) : Advances s t :=
  ⟨h.out ▸ List.prefix_rfl, h.bytes, h.pos⟩

theorem storedData_advances (k : Nat) (s : State) : Advances s (storedData k s) := storedData_readsOn k s

theorem exec_storedLenNlen_advances {len nlen : BitVec 16} {s t : State} (h : exec (.storedLenNlen len nlen) s = .next t) :
    Advances s t := by
  by_cases hlen : len ^^^ 0xFFFF = nlen
  · rw [exec_storedLenNlen_of_eq hlen] at h
    cases h
    refine Advances.trans (.of_eq ?_ ?_) (storedData_advances _ _) <;> rfl
  · rw [exec_storedLenNlen_of_ne hlen] at h
    cases h
    exact .of_eq rfl rfl

theorem litlenMeaning_advances {sym x : Nat} {s t : State} (h : litlenMeaning sym x s = .next t) : Advances s t := by
  by_cases hs : sym < 256
  · rw [litlenMeaning, if_pos hs] at h
    cases h
    exact ⟨List.prefix_append _ _, rfl, Nat.le_refl _⟩
  · obtain ⟨hsrc, -, -, hout⟩ := litlenMeaning_frame h (Nat.le_of_not_lt hs)
    exact .of_eq hsrc hout

theorem exec_advances {i : Instr} {s t : State} (h : exec i s = .next t) : Advances s t := by
  cases i using kindElim with
  | btype0 f =>
    obtain ⟨-, hout, hbytes, hpos, -⟩ := execBtype0Stored_frame (f := f) h
    exact ⟨hout ▸ List.prefix_rfl, hbytes, hpos⟩
  | stored len nlen => exact exec_storedLenNlen_advances h
  | cllen v =>
    obtain ⟨hsrc, -, -, hout⟩ := execCllen_frame (v := v) h
    exact .of_eq hsrc hout
  | litlen i sym n x hform => exact litlenMeaning_advances (exec_litlen hform s ▸ h)
  | dist i sym n x hform =>
    obtain ⟨hsrc, -, hout, -⟩ := distMeaning_frame (exec_dist hform s ▸ h)
    exact ⟨hout, by rw [hsrc], by rw [hsrc]⟩
  | clsym i sym n x hform =>
    obtain ⟨hsrc, -, -, hout⟩ := clMeaning_frame (exec_clsym hform s ▸ h)
    exact .of_eq hsrc hout
  | _ => cases h; exact .of_eq rfl rfl

/-- Settles O56: fetching reads on, and what follows it, a meaning or a failure, advances too. -/
theorem outputIsNeverRetracted : Obligations.OutputIsNeverRetracted := by
  intro s t h
  have hfetch := (fetch_readsFrom s).advances
  obtain ⟨-, hstep⟩ | ⟨i, s', hf, hstep⟩ | ⟨r, s', hf, hstep⟩ := step_cases s <;> rw [hstep] at h
  · cases h
    exact Advances.of_eq rfl rfl
  · rw [hf] at hfetch
    exact hfetch.trans (exec_advances h)
  · rw [hf] at hfetch
    cases h
    exact hfetch.trans (.of_eq (raiseReject_src r s') (raiseReject_out r s'))

end Sys2Proof.Machine
end

section
/-!
Proofs of the family 60_exceptions: a run on the first bytes of a source goes along with the run on all of them, until it
finds the end of its own bytes and fails as `Truncated` with a part of the output.
-/

namespace Sys2Proof.Machine

/-! ### A source with more bytes behind it -/

/-- The same state before a source with `tail` behind its bytes. -/
def followedBy (tail : List Byte) (s : State) : State := { s with src.bytes := s.src.bytes ++ tail }

@[simp] theorem followedBy_br (tail : List Byte) (s : State) : (followedBy tail s).br = s.br := rfl
@[simp] theorem followedBy_hb (tail : List Byte) (s : State) : (followedBy tail s).hb = s.hb := rfl
@[simp] theorem followedBy_bd (tail : List Byte) (s : State) : (followedBy tail s).bd = s.bd := rfl
@[simp] theorem followedBy_out (tail : List Byte) (s : State) : (followedBy tail s).out = s.out := rfl
@[simp] theorem followedBy_src_pos (tail : List Byte) (s : State) : (followedBy tail s).src.pos = s.src.pos := rfl
@[simp] theorem followedBy_src_bytes (tail : List Byte) (s : State) :
    (followedBy tail s).src.bytes = s.src.bytes ++ tail := rfl

theorem followedBy_startOn (tail bytes : List Byte) : followedBy tail (startOn bytes) = startOn (bytes ++ tail) := rfl

theorem ReaderOk.followedBy {s : State} (h : ReaderOk s) (he : s.br.eos = false) (tail : List Byte) :
    ReaderOk (followedBy tail s) := by
  refine ⟨?_, fun hr => ?_, by simp [he]⟩
  · have hpos := h.pos_le
    simp only [followedBy_src_pos, followedBy_src_bytes, List.length_append]
    omega
  · obtain ⟨hpos, hcur⟩ := h.cur_last hr
    have hle := h.pos_le
    exact ⟨hpos, by simpa [List.getElem?_append_left (show s.src.pos - 1 < s.src.bytes.length by omega)] using hcur⟩

/-- The bits ahead go on with those of the bytes behind. -/
theorem bitsAhead_followedBy {s : State} (h : ReaderOk s) (he : s.br.eos = false) (tail : List Byte) :
    bitsAhead (followedBy tail s) = bitsAhead s ++ bytesToBits tail := by
  simp [bitsAhead, he, List.drop_append_of_le_length h.pos_le, bytesToBits_append]

theorem consume_followedBy {s : State} (h : ReaderOk s) (he : s.br.eos = false) {k : Nat} (hk : k ≤ (bitsAhead s).length)
    (tail : List Byte) : consume k (followedBy tail s) = followedBy tail (consume k s) := by
  rw [bitsAhead_length h he] at hk
  unfold consume
  split
  · rfl
  · have hlt : (bitpos s + k + 7) / 8 - 1 < s.src.bytes.length := by omega
    simp only [followedBy, ← List.getElem?_append_left hlt (l₂ := tail)]
    rfl

/-- Bits that are there are read alike. -/
theorem readUint_followedBy {s : State} (h : ReaderOk s) (he : s.br.eos = false) {n : Nat} (hn : n ≤ 15)
    (hbits : n ≤ (bitsAhead s).length) (tail : List Byte) :
    readUint n (followedBy tail s) =
      .ok (bitsValue ((bitsAhead s).take n)) (followedBy tail (consume n s)) := by
  have hahead := bitsAhead_followedBy h he tail
  rw [readUint_of_le (h.followedBy he tail) hn (by rw [hahead, List.length_append]; omega), hahead,
    List.take_append_of_le_length hbits, consume_followedBy h he hbits]

/-- What decodes does so whatever bits stand behind it. -/
theorem decode_append {c : Ctx} {i : Instr} {bits rest : List Bool} (hc : ctxAccepted c)
    (h : decode listBits c bits = .ok i rest) (tail : List Bool) :
    decode listBits c (bits ++ tail) = .ok i (rest ++ tail) := by
  obtain ⟨hwf, hbits⟩ := decodedBitsAreTheEncoding c i bits rest hc h
  rw [hbits, List.append_assoc]
  exact encodedElementsDecodeBack c i _ hc hwf

/-! ### Meanings that do not read -/

/-- An outcome with its next state before a source with `tail` behind. -/
def nextFollowedBy (tail : List Byte) : Host.Outcome State Fault Refusal → Host.Outcome State Fault Refusal
  | .next s => .next (followedBy tail s)
  | .fault r => .fault r
  | .refused r => .refused r

section
variable (tail : List Byte) (s : State)

theorem raiseBuild_followedBy (e : BuildError) (which : BitVec 8) :
    raiseBuild e which (followedBy tail s) = followedBy tail (raiseBuild e which s) := by cases e <;> rfl

theorem endOfBlock_followedBy : endOfBlock (followedBy tail s) = followedBy tail (endOfBlock s) := by
  cases hf : s.bd.bfinal with
  | true => rw [endOfBlock_of_bfinal hf, endOfBlock_of_bfinal (s := followedBy tail s) hf]; rfl
  | false => rw [endOfBlock_of_not_bfinal hf, endOfBlock_of_not_bfinal (s := followedBy tail s) hf]; rfl

theorem buildClCode_followedBy : buildClCode (followedBy tail s) = followedBy tail (buildClCode s) := by
  unfold buildClCode
  rw [followedBy_bd]
  split
  · exact raiseBuild_followedBy tail s _ _
  · rfl

theorem buildDistCode_followedBy (lens : List (BitVec 4)) :
    buildDistCode lens (followedBy tail s) = followedBy tail (buildDistCode lens s) := by
  unfold buildDistCode
  split
  · rfl
  · split
    · exact raiseBuild_followedBy tail s _ _
    · rfl

theorem splitAndBuild_followedBy : splitAndBuild (followedBy tail s) = followedBy tail (splitAndBuild s) := by
  cases hb : build (s.bd.codeLen.toList.take (countLL s.bd.hlit)) with
  | error e =>
    rw [splitAndBuild_of_error hb, splitAndBuild_of_error (s := followedBy tail s) hb, raiseBuild_followedBy]
  | ok code =>
    rw [splitAndBuild_of_ok hb, splitAndBuild_of_ok (s := followedBy tail s) hb, ← buildDistCode_followedBy]
    rfl

theorem copyLoop_followedBy (k : Nat) (r : BitVec 15) :
    copyLoop k r (followedBy tail s) = followedBy tail (copyLoop k r s) := by
  induction k generalizing r s with
  | zero => rfl
  | succ k ih => exact ih (emit _ s) (r + 1)

theorem copy_followedBy (d n : Nat) : copy d n (followedBy tail s) = followedBy tail (copy d n s) := by
  unfold copy
  rw [followedBy_hb]
  split
  · rfl
  · exact copyLoop_followedBy tail s _ _

theorem codeLengthRun_followedBy (run : Nat) (val : BitVec 4) :
    codeLengthRun run val (followedBy tail s) = nextFollowedBy tail (codeLengthRun run val s) := by
  have hcount : codeLenCount (followedBy tail s) = codeLenCount s := rfl
  simp only [codeLengthRun, hcount, followedBy_bd]
  split_ifs
  · rfl
  · rfl
  · exact congrArg Host.Outcome.next (splitAndBuild_followedBy tail (withRun s (run, val)))
  · rfl

theorem clMeaning_followedBy (sym x : Nat) :
    clMeaning sym x (followedBy tail s) = nextFollowedBy tail (clMeaning sym x s) := by
  unfold clMeaning
  rw [followedBy_bd]
  split_ifs
  · exact codeLengthRun_followedBy tail s _ _
  · rfl
  · exact codeLengthRun_followedBy tail s _ _
  · exact codeLengthRun_followedBy tail s _ _
  · exact codeLengthRun_followedBy tail s _ _

theorem execCllen_followedBy (v : BitVec 3) :
    execCllen v (followedBy tail s) = nextFollowedBy tail (execCllen v s) := by
  unfold execCllen
  rw [followedBy_bd]
  split_ifs
  · rfl
  · exact congrArg Host.Outcome.next (buildClCode_followedBy tail (withClLen v s))
  · rfl

theorem lengthSymbol_followedBy (len : Nat) :
    lengthSymbol len (followedBy tail s) = nextFollowedBy tail (lengthSymbol len s) := by
  unfold lengthSymbol
  rw [followedBy_bd]
  split_ifs <;> rfl

theorem litlenMeaning_followedBy (sym x : Nat) :
    litlenMeaning sym x (followedBy tail s) = nextFollowedBy tail (litlenMeaning sym x s) := by
  unfold litlenMeaning
  split_ifs
  · rfl
  · exact congrArg Host.Outcome.next (endOfBlock_followedBy tail s)
  · exact lengthSymbol_followedBy tail s _
  · rfl

theorem distMeaning_followedBy (sym x : Nat) :
    distMeaning sym x (followedBy tail s) = nextFollowedBy tail (distMeaning sym x s) := by
  unfold distMeaning distanceSymbol
  rw [followedBy_bd]
  split_ifs
  · rfl
  · exact congrArg Host.Outcome.next (copy_followedBy tail { s with bd.expect := .litlen } _ _)
  · rfl

/-- An element that does not read does the same whatever stands behind the source's bytes. -/
theorem exec_followedBy {i : Instr} (hbtype0 : ∀ f, i ≠ .btype0Stored f) (hstored : ∀ len nlen, i ≠ .storedLenNlen len nlen) :
    exec i (followedBy tail s) = nextFollowedBy tail (exec i s) := by
  cases i using kindElim with
  | btype0 f => exact absurd rfl (hbtype0 f)
  | stored len nlen => exact absurd rfl (hstored len nlen)
  | cllen v => exact execCllen_followedBy tail s v
  | litlen i sym n x hform => rw [exec_litlen hform, exec_litlen hform, litlenMeaning_followedBy]
  | dist i sym n x hform => rw [exec_dist hform, exec_dist hform, distMeaning_followedBy]
  | clsym i sym n x hform => rw [exec_clsym hform, exec_clsym hform, clMeaning_followedBy]
  | _ => rfl

end

/-! ### The run on the first bytes -/

/-- The run has found the end of the source where it needed a bit (60_exceptions.md R282). -/
def Truncated (u : State) : Prop := u.bd.phase = .failed ∧ u.bd.err = some ⟨.truncated, .unexpectedEnd, 0⟩

/-- How a run that has come to `u` stands to the run, come to `t`, with `tail` behind its bytes: they are in step, or the
first is truncated and its output a part of the other's. -/
def Lags (tail : List Byte) (u t : State) : Prop := t = followedBy tail u ∨ (Truncated u ∧ u.out <+: t.out)

theorem truncated_raiseReject (got : Partial) (s : State) : Truncated (raiseReject (.unexpectedEnd got) s) := ⟨rfl, rfl⟩

theorem Truncated.ended {u : State} (h : Truncated u) : ended u = true := by simp [Machine.ended, h.1]

/-- Aligning needs no more than the byte that has been pulled (40_bit_reader.md R134). -/
theorem exec_btype0Stored_followedBy {s : State} (h : ReaderOk s) (he : s.br.eos = false) (f : Bool) (tail : List Byte) :
    exec (.btype0Stored f) (followedBy tail s) = nextFollowedBy tail (exec (.btype0Stored f) s) := by
  obtain ⟨hfull, -⟩ := storedBlockAligns f (followedBy tail s) (h.followedBy he tail) he
  obtain ⟨hpart, -⟩ := storedBlockAligns f s h he
  rw [hfull, hpart]
  rw [bits_to_boundary_eq_rem, bits_to_boundary_eq_rem, followedBy_br, consume_followedBy h he (rem_le_bitsAhead h he)]
  rfl

/-- The data loop of a stored block goes along until a byte is missing (43_block_header_stored.md R197). -/
theorem storedData_lags {s : State} (h : Running s) (k : Nat) (tail : List Byte) :
    Lags tail (storedData k s) (storedData k (followedBy tail s)) := by
  induction k generalizing s with
  | zero => exact .inl (endOfBlock_followedBy tail s)
  | succ k ih =>
    by_cases hbits : 8 ≤ (bitsAhead s).length
    · rw [storedData, storedData, readUint_of_le h.reader (by decide) hbits,
        readUint_followedBy h.reader h.eos (by decide) hbits]
      have ht := (h.consume_keeps hbits).emit_keeps (BitVec.ofNat 8 (bitsValue ((bitsAhead s).take 8)))
      exact ih (ht.setBd_keeps ht.err ht.notDone ht.notFailed)
    · obtain ⟨hout, -⟩ := storedData_advances (k + 1) (followedBy tail s)
      rw [storedData, readUint_of_lt h.reader (by decide) (Nat.lt_of_not_le hbits)]
      exact .inr ⟨truncated_raiseReject _ _, by simpa using hout⟩

/-- The lengths and the data of a stored block go along until a byte is missing. -/
theorem exec_storedLenNlen_lags {len nlen : BitVec 16} {s u t : State} {tail : List Byte} (h : Running s)
    (hu : exec (.storedLenNlen len nlen) s = .next u) (ht : exec (.storedLenNlen len nlen) (followedBy tail s) = .next t) :
    Lags tail u t := by
  by_cases hlen : len ^^^ 0xFFFF = nlen
  · have hdata : Running { s with bd := { s.bd with len := len, nlen := nlen, cnt := len } } :=
      h.setBd_keeps h.err h.notDone h.notFailed
    rw [exec_storedLenNlen_of_eq hlen] at hu ht
    cases hu
    cases ht
    exact storedData_lags hdata _ tail
  · rw [exec_storedLenNlen_of_ne hlen] at hu ht
    cases hu
    cases ht
    exact .inl rfl

/-- An element goes along: what a stored block reads may be cut short, no other meaning reads past the bits at hand. -/
theorem exec_lags {i : Instr} {s u t : State} {tail : List Byte} (h : Running s) (hu : exec i s = .next u)
    (ht : exec i (followedBy tail s) = .next t) : Lags tail u t := by
  have inStep (heq : exec i (followedBy tail s) = nextFollowedBy tail (exec i s)) : Lags tail u t := by
    rw [heq, hu] at ht
    cases ht
    exact .inl rfl
  by_cases hstored : ∃ len nlen, i = .storedLenNlen len nlen
  · obtain ⟨len, nlen, rfl⟩ := hstored
    exact exec_storedLenNlen_lags h hu ht
  · by_cases hbtype0 : ∃ f, i = .btype0Stored f
    · obtain ⟨f, rfl⟩ := hbtype0
      exact inStep (exec_btype0Stored_followedBy h.reader h.eos f tail)
    · exact inStep (exec_followedBy tail s (fun f hi => hbtype0 ⟨f, hi⟩) fun len nlen hi => hstored ⟨len, nlen, hi⟩)

/-- An element whose bits are at hand is fetched alike. -/
theorem fetch_followedBy {s : State} {i : Instr} {rest : List Bool} (h : Running s) (hdue : Due s)
    (hd : decode listBits (ctxOf s) (bitsAhead s) = .ok i rest) (tail : List Byte) :
    fetch (followedBy tail s) = .ok i (followedBy tail (consume ((bitsAhead s).length - rest.length) s)) := by
  have hahead := bitsAhead_followedBy h.reader h.eos tail
  have hfetch := fetch_of_decode (h.reader.followedBy h.eos tail) h.eos (i := i) (rest := rest ++ bytesToBits tail)
    (by rw [hahead]; exact decode_append hdue.ctxAccepted hd _)
  rw [hfetch, hahead, List.length_append, List.length_append, Nat.add_sub_add_right,
    consume_followedBy h.reader h.eos (Nat.sub_le _ _)]

/-- A step of a run in step: its element is at hand and goes along, or its bits run out. -/
theorem step_lags {s u t : State} {tail : List Byte} (h : Safe s) (hu : step s = .next u)
    (ht : step (followedBy tail s) = .next t) : Lags tail u t := by
  cases hrun : ended s with
  | true =>
    rw [step_of_ended hrun] at hu
    rw [step_of_ended (s := followedBy tail s) hrun] at ht
    cases hu
    cases ht
    exact .inl rfl
  | false =>
    have hs := h.running hrun
    obtain ⟨hdue, -⟩ := (controlOk_iff hs.notDone hs.notFailed).mp h.control
    cases hd : decode listBits (ctxOf s) (bitsAhead s) with
    | ok i rest =>
      rw [step_of_fetch hrun (fetch_of_decode hs.reader hs.eos hd)] at hu
      rw [step_of_fetch (s := followedBy tail s) hrun (fetch_followedBy hs hdue hd tail)] at ht
      exact exec_lags (hs.consume_keeps (Nat.sub_le _ _)) hu ht
    | stop r rest =>
      obtain ⟨got, rfl⟩ := decode_onlyRunsOut hdue.ctxAccepted _ r rest hd
      have hrel := decode_bitReader hs.reader hs.eos (ctxOf s)
      rw [hd] at hrel
      rw [step_of_reject hrun hrel.eq_unexpectedEnd] at hu
      cases hu
      obtain ⟨hout, -⟩ := outputIsNeverRetracted _ _ ht
      exact .inr ⟨truncated_raiseReject _ _, by simpa using hout⟩

/-- While one run makes a step the other makes one too, and stays in step or is truncated. -/
theorem Lags.step {s t t' : State} {tail : List Byte} (hlag : Lags tail s t) (h : Safe s) (ht : step t = .next t') :
    ∃ u, step s = .next u ∧ Safe u ∧ u.src.bytes = s.src.bytes ∧ Lags tail u t' := by
  obtain ⟨u, hu, hsafe⟩ := everyStepKeepsSafe s h
  obtain ⟨-, hbytes, -⟩ := outputIsNeverRetracted s u hu
  refine ⟨u, hu, hsafe, hbytes, ?_⟩
  obtain rfl | ⟨hcut, hout⟩ := hlag
  · exact step_lags h hu ht
  · obtain ⟨hgrows, -⟩ := outputIsNeverRetracted t t' ht
    rw [step_of_ended hcut.ended] at hu
    cases hu
    exact .inr ⟨hcut, hout.trans hgrows⟩

theorem run_succ_of_step {s u : State} (h : step s = .next u) (k : Nat) : core.run (k + 1) s = core.run k u := by
  have hcore : core.step s = .next u := h
  simp only [Host.Core.run, hcore]

theorem Lags.run {k : Nat} {s t t' : State} {tail : List Byte} (hlag : Lags tail s t) (h : Safe s)
    (ht : core.run k t = .next t') :
    ∃ u, core.run k s = .next u ∧ Safe u ∧ u.src.bytes = s.src.bytes ∧ Lags tail u t' := by
  induction k generalizing s t with
  | zero => cases ht; exact ⟨s, rfl, h, rfl, hlag⟩
  | succ k ih =>
    obtain ⟨t₁, hstep⟩ := nothingStops.2 t
    rw [run_succ_of_step hstep] at ht
    obtain ⟨s₁, hstep₁, h₁, hbytes₁, hlag₁⟩ := hlag.step h hstep
    obtain ⟨u, hu, hsafe, hbytes, hlag'⟩ := ih hlag₁ h₁ ht
    exact ⟨u, (run_succ_of_step hstep₁ k).trans hu, hsafe, hbytes.trans hbytes₁, hlag'⟩

/-- Settles O60: after as many steps the run on the first `m` bytes is truncated, for in step with the whole run it would
have requested more bytes than it has. -/
theorem properPrefixesAreTruncated : Obligations.ProperPrefixesAreTruncated := by
  intro bytes k m t hrun hdone hpos hm
  have hlag : Lags (bytes.drop m) (startOn (bytes.take m)) (startOn bytes) :=
    .inl (by rw [followedBy_startOn, List.take_append_drop])
  obtain ⟨u, hu, hsafe, hbytes, rfl | ⟨⟨hphase, herr⟩, hout⟩⟩ := hlag.run (everyStartIsSafe.2 _) hrun
  · have hle := hsafe.reader.pos_le
    rw [hbytes, show u.src.pos = bytes.length from hpos] at hle
    exact absurd (hle.trans (List.length_take_le m bytes)) (Nat.not_le.mpr hm)
  · exact ⟨k, u, hu, hphase, herr, hout⟩

end Sys2Proof.Machine
end

section
/-!
Proofs of the family 70_reset_and_hazards: a step of a run that goes on uses up bits, or is the dispatch after a header, so
the run ends; and a run that has not failed is the same whatever stands behind the bytes it has pulled.
-/

namespace Sys2Proof.Machine

/-! ### Reset -/

/-- Settles O1: `hostReset` writes the registers' reset values over those of any state, and rewinds the source. -/
theorem resetLeavesTheReliableValues : Obligations.ResetLeavesTheReliableValues :=
  ⟨fun _ => ⟨rfl, rfl, rfl, rfl, rfl, rfl, rfl⟩, rfl⟩

/-! ### A run that goes on uses up its bits -/

/-- Without a bit only the dispatch is decoded. -/
theorem decode_nil_of_not_dispatch {c : Ctx} (hc : ∀ f t, c ≠ .dispatch f t) :
    ∃ r rest, decode listBits c [] = .stop r rest := by
  cases c with
  | dispatch f t => exact absurd rfl (hc f t)
  | header | storedLen | hlit | hdist | hclen | cllen | clsym | litlen | dist => exact ⟨_, _, rfl⟩

/-- Every element but the dispatch has at least one bit. -/
theorem decode_consumes {c : Ctx} {i : Instr} {bits rest : List Bool} (hc : ctxAccepted c) (hnot : ∀ f t, c ≠ .dispatch f t)
    (h : decode listBits c bits = .ok i rest) : rest.length < bits.length := by
  obtain ⟨hwf, hbits⟩ := decodedBitsAreTheEncoding c i bits rest hc h
  have hne : encode c i ≠ [] := fun hnil => by
    obtain ⟨r, rest', hstop⟩ := decode_nil_of_not_dispatch hnot
    have hback := encodedElementsDecodeBack c i [] hc hwf
    rw [hnil, List.append_nil, hstop] at hback
    cases hback
  have hpos := List.length_pos_iff.mpr hne
  rw [hbits, List.length_append]
  omega

theorem ctxOf_ne_dispatch {s : State} (h : s.bd.expect ≠ .dispatch) (f : Bool) (t : BitVec 2) : ctxOf s ≠ .dispatch f t := by
  cases he : s.bd.expect with
  | dispatch => exact absurd he h
  | header | storedLen | hlit | hdist | hclen | cllen | clsym | litlen | dist => simp only [ctxOf, he]; exact nofun

/-- The bits ahead are a matter of the source and the bit reader alone. -/
theorem bitsAhead_congr {s t : State} (hsrc : t.src = s.src) (hbr : t.br = s.br) : bitsAhead t = bitsAhead s := by
  rw [bitsAhead, bitsAhead, hsrc, hbr]

theorem bitsAhead_consume_length_le {s : State} (h : Running s) {k : Nat} (hk : k ≤ (bitsAhead s).length) :
    (bitsAhead (consume k s)).length ≤ (bitsAhead s).length := by
  rw [(consume_spec h.reader h.eos k hk).2]
  exact (List.drop_sublist k _).length_le

/-- The two elements of a stored block are the ones whose meanings read (10_state.md R47, `onlyStoredBlocksReadFurther`). -/
theorem readsFurther_cases (i : Instr) : (∃ f, i = .btype0Stored f) ∨ (∃ len nlen, i = .storedLenNlen len nlen) ∨
    ((∀ f, i ≠ .btype0Stored f) ∧ ∀ len nlen, i ≠ .storedLenNlen len nlen) := by
  by_cases hbtype0 : ∃ f, i = .btype0Stored f
  · exact .inl hbtype0
  · by_cases hstored : ∃ len nlen, i = .storedLenNlen len nlen
    · exact .inr (.inl hstored)
    · exact .inr (.inr ⟨not_exists.mp hbtype0, fun len nlen hi => hstored ⟨len, nlen, hi⟩⟩)

/-- The byte that the next eight bits ahead make up. -/
def nextByte (s : State) : Byte := BitVec.ofNat 8 (bitsValue ((bitsAhead s).take 8))

/-- An iteration of the data loop delivers eight bits that are there. -/
theorem storedData_succ_of_le {s : State} (h : ReaderOk s) (hbits : 8 ≤ (bitsAhead s).length) (k : Nat) :
    storedData (k + 1) s = storedData k (deliver (nextByte s) s) := by
  rw [storedData, readUint_of_le h (by decide) hbits]
  simp only [deliver, nextByte, emit_bd, consume_bd]

/-- An iteration of the data loop fails where eight bits are not there (60_exceptions.md R282). -/
theorem storedData_succ_of_lt {s : State} (h : ReaderOk s) (hbits : (bitsAhead s).length < 8) (k : Nat) :
    storedData (k + 1) s =
      raiseReject (.unexpectedEnd .nothing) { consume (bitsAhead s).length s with br.eos := true } := by
  rw [storedData, readUint_of_lt h (by decide) hbits]

theorem Running.deliver_keeps {s : State} (h : Running s) (hbits : 8 ≤ (bitsAhead s).length) (b : Byte) :
    Running (deliver b s) :=
  ((h.consume_keeps hbits).emit_keeps b).setBd_keeps h.err h.notDone h.notFailed

/-- The data loop gives no bit back. -/
theorem storedData_bitsAhead_le {s : State} (h : Running s) (k : Nat) :
    (bitsAhead (storedData k s)).length ≤ (bitsAhead s).length := by
  induction k generalizing s with
  | zero => exact (congrArg List.length (bitsAhead_congr (endOfBlock_src s) (endOfBlock_br s))).le
  | succ k ih =>
    by_cases hbits : 8 ≤ (bitsAhead s).length
    · rw [storedData_succ_of_le h.reader hbits]
      exact (ih (h.deliver_keeps hbits _)).trans (bitsAhead_consume_length_le h hbits)
    · rw [storedData_succ_of_lt h.reader (Nat.lt_of_not_le hbits), bitsAhead_of_eos (by simp)]
      exact Nat.zero_le _

/-- No element gives a bit back. -/
theorem exec_bitsAhead_le {i : Instr} {s t : State} (h : Running s) (ht : exec i s = .next t) :
    (bitsAhead t).length ≤ (bitsAhead s).length := by
  obtain ⟨f, rfl⟩ | ⟨len, nlen, rfl⟩ | ⟨hbtype0, hstored⟩ := readsFurther_cases i
  · obtain ⟨hexec, -⟩ := storedBlockAligns f s h.reader h.eos
    rw [hexec, bits_to_boundary_eq_rem] at ht
    cases ht
    exact bitsAhead_consume_length_le h (rem_le_bitsAhead h.reader h.eos)
  · by_cases hlen : len ^^^ 0xFFFF = nlen
    · have hdata : Running { s with bd := { s.bd with len := len, nlen := nlen, cnt := len } } :=
        h.setBd_keeps h.err h.notDone h.notFailed
      rw [exec_storedLenNlen_of_eq hlen] at ht
      cases ht
      exact storedData_bitsAhead_le hdata _
    · rw [exec_storedLenNlen_of_ne hlen] at ht
      cases ht
      exact Nat.le_refl _
  · obtain ⟨hsrc, hbr⟩ := onlyStoredBlocksReadFurther i s t ht hbtype0 hstored
    rw [bitsAhead_congr hsrc hbr]

/-- After the dispatch the run has ended, or an element of the block is due. -/
theorem exec_btypeInstr_expect {f : Bool} {b : BitVec 2} {s t : State} (h : Running s)
    (ht : exec (btypeInstr f b) s = .next t) : ended t = true ∨ t.bd.expect ≠ .dispatch := by
  unfold btypeInstr at ht
  split_ifs at ht
  · rw [(storedBlockAligns f s h.reader h.eos).1] at ht
    cases ht
    exact .inr nofun
  · cases ht
    exact .inr nofun
  · cases ht
    exact .inr nofun
  · cases ht
    exact .inl rfl

/-! ### The end of every run -/

/-- A bound on the steps before the run's last one: two for each bit ahead, and the dispatch where it is due. -/
def stepsLeft (s : State) : Nat := 2 * (bitsAhead s).length + if s.bd.expect = .dispatch then 1 else 0

theorem stepsLeft_le (s : State) : stepsLeft s ≤ 2 * (bitsAhead s).length + 1 := by
  unfold stepsLeft
  split <;> omega

theorem stepsLeft_of_dispatch {s : State} (h : s.bd.expect = .dispatch) : stepsLeft s = 2 * (bitsAhead s).length + 1 := by
  rw [stepsLeft, if_pos h]

theorem stepsLeft_of_not_dispatch {s : State} (h : s.bd.expect ≠ .dispatch) : stepsLeft s = 2 * (bitsAhead s).length := by
  rw [stepsLeft, if_neg h, Nat.add_zero]

/-- A step of a run that goes on ends it or leaves fewer steps: the dispatch reads no bit and is not due again, every other
element has a bit, and where none is left the source's end is found. -/
theorem step_ends_or_stepsLeft_lt {s t : State} (h : Safe s) (hrun : ended s = false) (ht : step s = .next t) :
    ended t = true ∨ stepsLeft t < stepsLeft s := by
  have hs := h.running hrun
  by_cases hexp : s.bd.expect = .dispatch
  · rw [step_of_fetch hrun (fetch_of_dispatch hexp)] at ht
    refine (exec_btypeInstr_expect hs ht).imp_right fun hne => ?_
    rw [stepsLeft_of_not_dispatch hne, stepsLeft_of_dispatch hexp]
    exact Nat.lt_succ_of_le (Nat.mul_le_mul_left 2 (exec_bitsAhead_le hs ht))
  · obtain ⟨hdue, -⟩ := (controlOk_iff hs.notDone hs.notFailed).mp h.control
    cases hd : decode listBits (ctxOf s) (bitsAhead s) with
    | ok i rest =>
      have hlt := decode_consumes hdue.ctxAccepted (ctxOf_ne_dispatch hexp) hd
      have hle := Nat.sub_le (bitsAhead s).length rest.length
      rw [step_of_fetch hrun (fetch_of_decode hs.reader hs.eos hd)] at ht
      have hahead := exec_bitsAhead_le (hs.consume_keeps hle) ht
      rw [(consume_spec hs.reader hs.eos _ hle).2, List.length_drop, Nat.sub_sub_self hlt.le] at hahead
      have hbound := stepsLeft_le t
      rw [stepsLeft_of_not_dispatch hexp]
      exact .inr (by omega)
    | stop r rest =>
      have hrel := decode_bitReader hs.reader hs.eos (ctxOf s)
      rw [hd] at hrel
      obtain ⟨s', hfetch, -⟩ := hrel.eq_stop
      rw [step_of_reject hrun hfetch] at ht
      cases ht
      exact .inl (by simp [ended])

theorem run_of_ended {s : State} (h : ended s = true) (k : Nat) : core.run k s = .next s := by
  induction k with
  | zero => rfl
  | succ k ih => rw [run_succ_of_step (step_of_ended h), ih]

/-- With more steps than are left the run has ended. -/
theorem run_ends_of_stepsLeft_lt {s : State} (h : Safe s) {k : Nat} (hk : stepsLeft s < k) :
    ∃ t, core.run k s = .next t ∧ ended t = true := by
  induction k generalizing s with
  | zero => exact absurd hk (Nat.not_lt_zero _)
  | succ k ih =>
    cases hrun : ended s with
    | true => exact ⟨s, run_of_ended hrun _, hrun⟩
    | false =>
      obtain ⟨t, hstep, ht⟩ := everyStepKeepsSafe s h
      rw [run_succ_of_step hstep]
      obtain hend | hlt := step_ends_or_stepsLeft_lt h hrun hstep
      · exact ⟨t, run_of_ended hend k, hend⟩
      · exact ih ht (hlt.trans_le (Nat.le_of_lt_succ hk))

/-- Settles O58: there are at most one more steps left than two for each bit ahead. -/
theorem everyRunEnds : Obligations.EveryRunEnds :=
  fun s h => run_ends_of_stepsLeft_lt h (Nat.lt_succ_of_le (stepsLeft_le s))

/-! ### A run within the first bytes -/

/-- A run that has come to `t` has failed, or has pulled more than `n` bytes. -/
def Overruns (n : Nat) (t : State) : Prop := t.bd.phase = .failed ∨ n < t.src.pos

/-- To consume more bits than are ahead is to pull a byte from behind. -/
theorem consume_followedBy_pos_gt {s : State} (h : ReaderOk s) (he : s.br.eos = false) {k : Nat}
    (hk : (bitsAhead s).length < k) (tail : List Byte) :
    s.src.bytes.length < (consume k (followedBy tail s)).src.pos := by
  rw [bitsAhead_length h he] at hk
  have hpos : bitpos (followedBy tail s) = bitpos s := rfl
  simp only [consume, if_neg (Nat.ne_zero_of_lt hk), hpos]
  omega

/-- What decodes only with the bits behind leaves fewer than those. -/
theorem decode_reads_past {c : Ctx} {i : Instr} {bits tail rest : List Bool} (hc : ctxAccepted c)
    (hnot : ∀ rest', decode listBits c bits ≠ .ok i rest') (h : decode listBits c (bits ++ tail) = .ok i rest) :
    rest.length < tail.length := by
  obtain ⟨hwf, hbits⟩ := decodedBitsAreTheEncoding c i _ rest hc h
  by_contra hle
  have hlen := congrArg List.length hbits
  rw [List.length_append, List.length_append] at hlen
  obtain ⟨rest', rfl⟩ := List.prefix_of_prefix_length_le ⟨rest, hbits.symm⟩ (List.prefix_append bits tail) (by omega)
  exact hnot rest' (encodedElementsDecodeBack c i rest' hc hwf)

theorem nextByte_followedBy {s : State} (h : Running s) (hbits : 8 ≤ (bitsAhead s).length) (tail : List Byte) :
    nextByte (followedBy tail s) = nextByte s := by
  rw [nextByte, bitsAhead_followedBy h.reader h.eos, List.take_append_of_le_length hbits, nextByte]

theorem deliver_followedBy {s : State} (h : Running s) (hbits : 8 ≤ (bitsAhead s).length) (b : Byte) (tail : List Byte) :
    deliver b (followedBy tail s) = followedBy tail (deliver b s) := by
  rw [deliver, consume_followedBy h.reader h.eos hbits]
  rfl

/-- The data loop is the same before the first bytes alone, unless it fails or pulls a byte behind them. -/
theorem storedData_followedBy_or_overruns {s : State} (h : Running s) (k : Nat) (tail : List Byte) :
    storedData k (followedBy tail s) = followedBy tail (storedData k s) ∨
      Overruns s.src.bytes.length (storedData k (followedBy tail s)) := by
  induction k generalizing s with
  | zero => exact .inl (endOfBlock_followedBy tail s)
  | succ k ih =>
    have hreader := h.reader.followedBy h.eos tail
    have hahead := congrArg List.length (bitsAhead_followedBy h.reader h.eos tail)
    rw [List.length_append] at hahead
    by_cases hbits : 8 ≤ (bitsAhead s).length
    · rw [storedData_succ_of_le h.reader hbits, storedData_succ_of_le hreader (by omega), nextByte_followedBy h hbits,
        deliver_followedBy h hbits, ← consume_src_bytes 8 s]
      exact ih (h.deliver_keeps hbits _)
    · right
      by_cases hmore : 8 ≤ (bitsAhead (followedBy tail s)).length
      · obtain ⟨-, -, hpos⟩ := storedData_advances k (deliver (nextByte (followedBy tail s)) (followedBy tail s))
        rw [storedData_succ_of_le hreader hmore]
        exact .inr ((consume_followedBy_pos_gt h.reader h.eos (Nat.lt_of_not_le hbits) tail).trans_le hpos)
      · rw [storedData_succ_of_lt hreader (Nat.lt_of_not_le hmore)]
        exact .inl (raiseReject_bd_phase _ _)

/-- An element is the same before the first bytes alone, unless it fails or pulls a byte behind them. -/
theorem exec_followedBy_or_overruns {i : Instr} {s t : State} {tail : List Byte} (h : Running s)
    (ht : exec i (followedBy tail s) = .next t) :
    (∃ u, exec i s = .next u ∧ t = followedBy tail u) ∨ Overruns s.src.bytes.length t := by
  have inStep (heq : exec i (followedBy tail s) = nextFollowedBy tail (exec i s)) :
      ∃ u, exec i s = .next u ∧ t = followedBy tail u := by
    obtain ⟨u, hu⟩ := exec_next i s
    rw [heq, hu] at ht
    cases ht
    exact ⟨u, hu, rfl⟩
  obtain ⟨f, rfl⟩ | ⟨len, nlen, rfl⟩ | ⟨hbtype0, hstored⟩ := readsFurther_cases i
  · exact .inl (inStep (exec_btype0Stored_followedBy h.reader h.eos f tail))
  · by_cases hlen : len ^^^ 0xFFFF = nlen
    · have hdata : Running { s with bd := { s.bd with len := len, nlen := nlen, cnt := len } } :=
        h.setBd_keeps h.err h.notDone h.notFailed
      rw [exec_storedLenNlen_of_eq hlen] at ht ⊢
      cases ht
      exact (storedData_followedBy_or_overruns hdata _ tail).imp_left fun heq => ⟨_, rfl, heq⟩
    · rw [exec_storedLenNlen_of_ne hlen] at ht
      cases ht
      exact .inr (.inl rfl)
  · exact .inl (inStep (exec_followedBy tail s hbtype0 hstored))

/-- A step is the same before the first bytes alone, unless it fails or pulls a byte behind them: where its element needs
the bits behind, it finds their end or reads on into them. -/
theorem step_followedBy_or_overruns {s t : State} {tail : List Byte} (h : Safe s) (ht : step (followedBy tail s) = .next t) :
    (∃ u, step s = .next u ∧ t = followedBy tail u) ∨ Overruns s.src.bytes.length t := by
  cases hrun : ended s with
  | true =>
    rw [step_of_ended (s := followedBy tail s) hrun] at ht
    cases ht
    exact .inl ⟨s, step_of_ended hrun, rfl⟩
  | false =>
    have hs := h.running hrun
    have hreader := hs.reader.followedBy hs.eos tail
    have hahead := bitsAhead_followedBy hs.reader hs.eos tail
    obtain ⟨hdue, -⟩ := (controlOk_iff hs.notDone hs.notFailed).mp h.control
    by_cases hhand : ∃ i rest, decode listBits (ctxOf s) (bitsAhead s) = .ok i rest
    · obtain ⟨i, rest, hd⟩ := hhand
      rw [step_of_fetch (s := followedBy tail s) hrun (fetch_followedBy hs hdue hd tail)] at ht
      rw [step_of_fetch hrun (fetch_of_decode hs.reader hs.eos hd), ← consume_src_bytes _ s]
      exact exec_followedBy_or_overruns (hs.consume_keeps (Nat.sub_le _ _)) ht
    · right
      cases hd : decode listBits (ctxOf (followedBy tail s)) (bitsAhead (followedBy tail s)) with
      | ok i rest =>
        have hpast := decode_reads_past hdue.ctxAccepted (fun rest' hok => hhand ⟨i, rest', hok⟩) (hahead ▸ hd)
        rw [step_of_fetch (s := followedBy tail s) hrun (fetch_of_decode hreader hs.eos hd), hahead,
          List.length_append] at ht
        obtain ⟨-, -, hpos⟩ := exec_advances ht
        exact .inr ((consume_followedBy_pos_gt hs.reader hs.eos (by omega) tail).trans_le hpos)
      | stop r rest =>
        have hrel := decode_bitReader hreader hs.eos (ctxOf (followedBy tail s))
        rw [hd] at hrel
        obtain ⟨s', hfetch, -⟩ := hrel.eq_stop
        rw [step_of_reject (s := followedBy tail s) hrun hfetch] at ht
        cases ht
        exact .inl (raiseReject_bd_phase r s')

/-- A safe run answers a safe state, before the same bytes. -/
theorem run_keeps_safe {s : State} (h : Safe s) (k : Nat) :
    ∃ t, core.run k s = .next t ∧ Safe t ∧ t.src.bytes = s.src.bytes := by
  induction k generalizing s with
  | zero => exact ⟨s, rfl, h, rfl⟩
  | succ k ih =>
    obtain ⟨u, hstep, hu⟩ := everyStepKeepsSafe s h
    obtain ⟨-, hbytes, -⟩ := outputIsNeverRetracted s u hstep
    obtain ⟨t, hrun, ht, hbytes'⟩ := ih hu
    exact ⟨t, (run_succ_of_step hstep k).trans hrun, ht, hbytes'.trans hbytes⟩

/-- A run that has failed stays failed, and no byte pulled is given back. -/
theorem Overruns.run {n k : Nat} {s t : State} (h : Overruns n s) (ht : core.run k s = .next t) : Overruns n t := by
  induction k generalizing s with
  | zero => cases ht; exact h
  | succ k ih =>
    obtain ⟨u, hstep⟩ := nothingStops.2 s
    rw [run_succ_of_step hstep] at ht
    refine ih ?_ ht
    obtain hfailed | hpos := h
    · rw [step_of_ended (by simp [ended, hfailed])] at hstep
      cases hstep
      exact .inl hfailed
    · obtain ⟨-, -, hle⟩ := outputIsNeverRetracted s u hstep
      exact .inr (hpos.trans_le hle)

/-- A run is the same before the first bytes alone, unless it fails or pulls a byte behind them. -/
theorem run_followedBy_or_overruns {k : Nat} {s t : State} {tail : List Byte} (h : Safe s)
    (ht : core.run k (followedBy tail s) = .next t) :
    (∃ u, core.run k s = .next u ∧ t = followedBy tail u) ∨ Overruns s.src.bytes.length t := by
  induction k generalizing s with
  | zero => cases ht; exact .inl ⟨s, rfl, rfl⟩
  | succ k ih =>
    obtain ⟨t₁, hstep⟩ := nothingStops.2 (followedBy tail s)
    rw [run_succ_of_step hstep] at ht
    obtain ⟨u₁, hstep₁, rfl⟩ | hover := step_followedBy_or_overruns h hstep
    · obtain ⟨u₁', hstep₁', h₁⟩ := everyStepKeepsSafe s h
      obtain rfl : u₁ = u₁' := Host.Outcome.next.inj (hstep₁.symm.trans hstep₁')
      obtain ⟨-, hbytes, -⟩ := outputIsNeverRetracted s u₁ hstep₁
      rw [run_succ_of_step hstep₁, ← hbytes]
      exact ih h₁ ht
    · exact .inr (hover.run ht)

/-- A run that ends in `Done` does the same before more bytes: it has not found the end of its own. -/
theorem run_startOn_append_of_done {bytes : List Byte} {k : Nat} {u : State} (hu : core.run k (startOn bytes) = .next u)
    (hdone : u.bd.phase = .done) (behind : List Byte) :
    core.run k (startOn (bytes ++ behind)) = .next (followedBy behind u) := by
  obtain ⟨t, ht, -⟩ := run_keeps_safe (everyStartIsSafe.2 (bytes ++ behind)) k
  have hlag : Lags behind (startOn bytes) (startOn (bytes ++ behind)) := .inl (followedBy_startOn behind bytes).symm
  obtain ⟨u', hu', -, -, hlag'⟩ := hlag.run (everyStartIsSafe.2 bytes) ht
  obtain rfl : u' = u := Host.Outcome.next.inj (hu'.symm.trans hu)
  obtain rfl | ⟨⟨hfailed, -⟩, -⟩ := hlag'
  · exact ht
  · rw [hdone] at hfailed
    cases hfailed

/-- A run that does not fail is the same before the bytes it has pulled. -/
theorem run_startOn_take {bytes : List Byte} {k : Nat} {t : State} (ht : core.run k (startOn bytes) = .next t)
    (hphase : t.bd.phase ≠ .failed) :
    core.run k (startOn (bytes.take t.src.pos)) = .next { t with src.bytes := bytes.take t.src.pos } := by
  have hfirst := everyStartIsSafe.2 (bytes.take t.src.pos)
  have hpulled : t.src.pos ≤ bytes.length := by
    obtain ⟨t', ht', hsafe, hbytes⟩ := run_keeps_safe (everyStartIsSafe.2 bytes) k
    obtain rfl : t' = t := Host.Outcome.next.inj (ht'.symm.trans ht)
    exact hsafe.reader.pos_le.trans_eq (congrArg List.length hbytes)
  rw [← List.take_append_drop t.src.pos bytes, ← followedBy_startOn] at ht
  obtain ⟨u, hu, heq⟩ | hfailed | hpos := run_followedBy_or_overruns hfirst ht
  · obtain ⟨u', hu', -, hbytes⟩ := run_keeps_safe hfirst k
    obtain rfl : u' = u := Host.Outcome.next.inj (hu'.symm.trans hu)
    have hback : { t with src.bytes := u'.src.bytes } = u' := by rw [heq]; rfl
    rw [hu, ← hback, hbytes]
    rfl
  · exact absurd hfailed hphase
  · exact absurd (hpos.trans_eq' (List.length_take_of_le hpulled)) (Nat.lt_irrefl _)

/-- Settles O59: the run is the same before the bytes it has pulled alone, and from there before any more. -/
theorem bytesAfterTheStreamAreNeverRead : Obligations.BytesAfterTheStreamAreNeverRead := by
  intro bytes behind k t hrun hdone
  have hpulled := run_startOn_take hrun (by rw [hdone]; nofun)
  exact run_startOn_append_of_done hpulled hdone behind

end Sys2Proof.Machine
end
